-- ==== Sys2Proof/Word.lean ====
section
/-! DEFINITION. The words of the blitter: bytes, the frame's pixels, layer numbers. Widths only; every operation on them
stands in a file under Sys2Proof/Machine/. -/

namespace Sys2Proof

/-- A byte: a ROM byte, a pixmap byte, a byte on a port, an 8-bit register field. -/
abbrev Byte := BitVec 8

/-- A frame pixel, 16 bits (R63, D40). -/
abbrev FramePixel := BitVec 16

/-- A layer id 0..7 (R62). -/
abbrev Layer := Fin 8

end Sys2Proof
end

