-- ==== Sys2Proof/Config.lean ====
section
/-! DEFINITION. The types of the configuration of a device (00_scope.md R7 to R17): fixed when the device is
constructed, changed by no rule. The default tables and the functions that look things up in a configuration stand in
Sys2Proof/Machine/Tables.lean. -/

namespace Sys2Proof

/-- The two pairs of write ports (R130). Pair B exists only with EIGHT_LAYER. -/
inductive PortPair where
  | a
  | b
  deriving DecidableEq, Repr

/-- The width of a ROM fetch unit, R8: `u8` or `u16`. No other value is a legal configuration (R345). -/
inductive FetchUnit where
  | u8
  | u16
  deriving DecidableEq, Repr

/-- The eight operations a command table maps opcodes to (R9). -/
inductive Operation where
  | nextLine
  | drawRun
  | copyRun
  | skip
  | changeArgSize
  | changePenSize
  | unknown
  | stop
  deriving DecidableEq, Repr

/-- What a start code does (R11). A code that no entry of STARTMAP names is UNKNOWN_START; it has no constructor here. -/
inductive StartOp where
  | romDraw
  | fillAll
  | fillFromXY
  | fillRect
  | fillBand
  | hline
  | vline
  deriving DecidableEq, Repr

/-- The two completion delay families (R15, R312). -/
inductive DelayFamily where
  | rom
  | direct
  deriving DecidableEq, Repr

/-- What a register index can reach (R10, R132): the registers of rules R140 to R172 and START (R160). Any index of either
pair's layout may reach any of them; which ones the default layouts reach is R106 and R107 (log 10). The argument of a
per-layer register is its layer. -/
inductive Reg where
  | destLayer
  | flip
  | blitX
  | blitY
  | rectWidth
  | rectHeight
  | lineLength
  | pen
  | penMode
  | penMask
  | clipX
  | clipY
  | clipWidth
  | clipHeight
  | clipCtrl
  | addrLo
  | addrMid
  | addrHi
  | start
  | priority
  | layerEnable
  | bgColor
  | priority2
  | layerEnable2
  | bgColor2
  | scrollX (l : Layer)
  | scrollY (l : Layer)
  | paletteBase (l : Layer)
  | paletteMask (l : Layer)
  | transPen (l : Layer)
  | transMask (l : Layer)
  deriving DecidableEq, Repr

/-- The two clip formulas (R13). -/
inductive ClipForm where
  | originPlusExtent
  | extentOnly
  deriving DecidableEq, Repr

/-- One row of the permutation table: four layers of a group in paint order, bottom first (R283). -/
structure PaintOrder where
  bottom : Fin 4
  second : Fin 4
  third : Fin 4
  top : Fin 4
  deriving DecidableEq, Repr

/-- The configuration (R7 to R17). The partial functions LAYOUT_A and LAYOUT_B and the map STARTMAP are lists of
(index, register) and (code, operation): the first entry with the key counts, a key that is not listed is undefined. -/
structure Config where
  /-- `ROM`, byte 0 first; its length is `L` (R7). -/
  rom : List Byte
  /-- `U` (R8). -/
  fetchUnit : FetchUnit
  /-- `CT`, opcode 0 first (R9). -/
  commandTable : Vector Operation 8
  /-- `LAYOUT_A` (R10). -/
  layoutA : List (BitVec 6 × Reg)
  /-- `LAYOUT_B` (R10). -/
  layoutB : List (BitVec 6 × Reg)
  /-- `STARTMAP` (R11). -/
  startMap : List (Byte × StartOp)
  /-- `EIGHT_LAYER` (R12). -/
  eightLayer : Bool
  /-- `CLIP_FORM` (R13). -/
  clipForm : ClipForm
  /-- `PERM` (R14). -/
  perm : Vector PaintOrder 24
  /-- `DELAY_ROM`, OPEN (R15). -/
  delayRom : Nat
  /-- `DELAY_DIRECT`, OPEN (R15). -/
  delayDirect : Nat
  /-- `VIS_W`, OPEN (R16). -/
  visWidth : Nat
  /-- `VIS_H`, OPEN (R16). -/
  visHeight : Nat
  /-- `PORT_PHASE_BIT` (R17). -/
  portPhaseBit : Nat
  deriving DecidableEq, Repr

end Sys2Proof
end

