-- ==== Sys2Proof/Machine/Tables.lean ====
section
/-! DEFINITION. Looking things up in a configuration (00_scope.md section 4), which configurations are legal (R345), and
the spec's default tables: CT0 (R111), LAYOUT_A (R106), LAYOUT_B (R107), STARTMAP (R108), PERM_LEX (R283). -/

namespace Sys2Proof

/-- `U` in bits (R8). -/
def FetchUnit.bits : FetchUnit → Nat
  | .u8 => 8
  | .u16 => 16

/-- The other port pair. -/
def PortPair.other : PortPair → PortPair
  | .a => .b
  | .b => .a

/-- The four layers of a row of PERM, in paint order, bottom first (R283). -/
def PaintOrder.toList (o : PaintOrder) : List (Fin 4) := [o.bottom, o.second, o.third, o.top]

/-- The first value that an association list gives a key. -/
def lookupFirst {κ α : Type} [DecidableEq κ] (k : κ) : List (κ × α) → Option α
  | [] => none
  | e :: es => if e.1 = k then some e.2 else lookupFirst k es

/-- The lowest of the keys 0, 1, ..., 2^w - 1 that `f` maps to `some a`. -/
def lowestKey {α : Type} [DecidableEq α] (w : Nat) (f : BitVec w → Option α) (a : α) : Option (BitVec w) :=
  ((List.range (2 ^ w)).map (BitVec.ofNat w)).find? (fun k => f k == some a)

/-- `L`, the number of ROM bytes (R7). -/
def Config.romLength (cfg : Config) : Nat := cfg.rom.length

/-- `U` in bits (R8). -/
def Config.unitBits (cfg : Config) : Nat := cfg.fetchUnit.bits

/-- `CT(op)` (R9). -/
def Config.operation (cfg : Config) (op : BitVec 3) : Operation := cfg.commandTable.get op.toFin

/-- `LAYOUT_A(index)` and `LAYOUT_B(index)` (R10); every index of pair B is undefined when pair B does not exist (R134). -/
def Config.reg (cfg : Config) (p : PortPair) (index : BitVec 6) : Option Reg :=
  match p with
  | .a => lookupFirst index cfg.layoutA
  | .b => if cfg.eightLayer then lookupFirst index cfg.layoutB else none

/-- `STARTMAP(code)` (R11); `none` is UNKNOWN_START. -/
def Config.startOp (cfg : Config) (code : Byte) : Option StartOp := lookupFirst code cfg.startMap

/-- The index that writes a register on a pair. DESIGN CHOICE (log 24), safe: where the pair's layout gives the register
several indices, the lowest; R113 speaks of "the index" only. -/
def Config.index (cfg : Config) (p : PortPair) (r : Reg) : Option (BitVec 6) := lowestKey 6 (cfg.reg p) r

/-- The pair and index that write a register. DESIGN CHOICE (log 24), safe: the pair `p` that the row names, where its
layout reaches the register, and otherwise the other pair. -/
def Config.place (cfg : Config) (p : PortPair) (r : Reg) : Option (PortPair × BitVec 6) :=
  match cfg.index p r with
  | some i => some (p, i)
  | none => (cfg.index p.other r).map (fun i => (p.other, i))

/-- The lowest start code of an operation (R113, `GO <OP>`). -/
def Config.startCode (cfg : Config) (o : StartOp) : Option Byte := lowestKey 8 cfg.startOp o

/-- `op(X)` (R112). DESIGN CHOICE (log 24), safe: where CT maps several opcodes to the operation, the lowest; R112 says "the
3-bit value CT maps to X" only. -/
def Config.opcode (cfg : Config) (o : Operation) : Option (BitVec 3) :=
  lowestKey 3 (fun op => some (cfg.operation op)) o

/-- The delay of a token's family (R15, R312). -/
def Config.delay (cfg : Config) : DelayFamily → Nat
  | .rom => cfg.delayRom
  | .direct => cfg.delayDirect

/-- The legal configurations (R345, D8): the ROM is not empty and a whole number of fetch units, PERM holds 24 distinct
permutations, the frame is not empty. That `U` is 8 or 16 and that PERM has 24 rows, the types say. -/
def Config.legal (cfg : Config) : Bool :=
  decide (1 ≤ cfg.romLength) && decide ((8 * cfg.romLength) % cfg.unitBits = 0) &&
  cfg.perm.toList.all (fun o => decide o.toList.Nodup) && decide cfg.perm.toList.Nodup &&
  decide (1 ≤ cfg.visWidth) && decide (1 ≤ cfg.visHeight)

/-- The default command table CT0 (R9, R111, D1). -/
def Config.ct0 : Vector Operation 8 :=
  #v[.nextLine, .drawRun, .copyRun, .skip, .changeArgSize, .changePenSize, .unknown, .stop]

/-- The shared registers of the default LAYOUT_A, indices 0x00 to 0x15 (R106, D2). -/
def Config.layoutAShared : List (BitVec 6 × Reg) :=
  [(0x00, .destLayer), (0x01, .flip), (0x02, .blitX), (0x03, .blitY), (0x04, .rectWidth), (0x05, .rectHeight),
   (0x06, .lineLength), (0x07, .pen), (0x08, .penMode), (0x09, .penMask), (0x0A, .clipX), (0x0B, .clipY),
   (0x0C, .clipWidth), (0x0D, .clipHeight), (0x0E, .clipCtrl), (0x0F, .addrLo), (0x10, .addrMid), (0x11, .addrHi),
   (0x12, .start), (0x13, .priority), (0x14, .layerEnable), (0x15, .bgColor)]

/-- The per-layer banks of the default LAYOUT_A, indices 0x20 to 0x37 (R106, D2). -/
def Config.layoutABanks : List (BitVec 6 × Reg) :=
  [(0x20, .scrollX 0), (0x21, .scrollX 1), (0x22, .scrollX 2), (0x23, .scrollX 3),
   (0x24, .scrollY 0), (0x25, .scrollY 1), (0x26, .scrollY 2), (0x27, .scrollY 3),
   (0x28, .paletteBase 0), (0x29, .paletteBase 1), (0x2A, .paletteBase 2), (0x2B, .paletteBase 3),
   (0x2C, .paletteMask 0), (0x2D, .paletteMask 1), (0x2E, .paletteMask 2), (0x2F, .paletteMask 3),
   (0x30, .transPen 0), (0x31, .transPen 1), (0x32, .transPen 2), (0x33, .transPen 3),
   (0x34, .transMask 0), (0x35, .transMask 1), (0x36, .transMask 2), (0x37, .transMask 3)]

/-- The default LAYOUT_B (R107, D4). -/
def Config.layoutB0 : List (BitVec 6 × Reg) :=
  [(0x13, .priority2), (0x14, .layerEnable2), (0x15, .bgColor2),
   (0x20, .scrollX 4), (0x21, .scrollX 5), (0x22, .scrollX 6), (0x23, .scrollX 7),
   (0x24, .scrollY 4), (0x25, .scrollY 5), (0x26, .scrollY 6), (0x27, .scrollY 7),
   (0x28, .paletteBase 4), (0x29, .paletteBase 5), (0x2A, .paletteBase 6), (0x2B, .paletteBase 7),
   (0x2C, .paletteMask 4), (0x2D, .paletteMask 5), (0x2E, .paletteMask 6), (0x2F, .paletteMask 7),
   (0x30, .transPen 4), (0x31, .transPen 5), (0x32, .transPen 6), (0x33, .transPen 7),
   (0x34, .transMask 4), (0x35, .transMask 5), (0x36, .transMask 6), (0x37, .transMask 7)]

/-- The default STARTMAP (R108, D3). -/
def Config.startMap0 : List (Byte × StartOp) :=
  [(0x01, .fillAll), (0x02, .fillFromXY), (0x03, .fillRect), (0x04, .fillBand), (0x05, .hline), (0x06, .vline),
   (0x10, .romDraw)]

/-- The default permutation table PERM_LEX (R283, D5). -/
def Config.permLex : Vector PaintOrder 24 :=
  #v[⟨0, 1, 2, 3⟩, ⟨0, 1, 3, 2⟩, ⟨0, 2, 1, 3⟩, ⟨0, 2, 3, 1⟩, ⟨0, 3, 1, 2⟩, ⟨0, 3, 2, 1⟩,
     ⟨1, 0, 2, 3⟩, ⟨1, 0, 3, 2⟩, ⟨1, 2, 0, 3⟩, ⟨1, 2, 3, 0⟩, ⟨1, 3, 0, 2⟩, ⟨1, 3, 2, 0⟩,
     ⟨2, 0, 1, 3⟩, ⟨2, 0, 3, 1⟩, ⟨2, 1, 0, 3⟩, ⟨2, 1, 3, 0⟩, ⟨2, 3, 0, 1⟩, ⟨2, 3, 1, 0⟩,
     ⟨3, 0, 1, 2⟩, ⟨3, 0, 2, 1⟩, ⟨3, 1, 0, 2⟩, ⟨3, 1, 2, 0⟩, ⟨3, 2, 0, 1⟩, ⟨3, 2, 1, 0⟩]

/-- The default configuration (R8 to R17). DESIGN CHOICE (log 1), unsafe for claims about `State.reset` only: the spec
gives ROM, the delays and the frame size no default, so they have the smallest legal values (a ROM of one zero byte, as
in vector T39d; no delay; a frame of one pixel, as in R286). -/
def Config.default : Config where
  rom := [0x00]
  fetchUnit := .u8
  commandTable := Config.ct0
  layoutA := Config.layoutAShared ++ Config.layoutABanks
  layoutB := Config.layoutB0
  startMap := Config.startMap0
  eightLayer := false
  clipForm := .originPlusExtent
  perm := Config.permLex
  delayRom := 0
  delayDirect := 0
  visWidth := 1
  visHeight := 1
  portPhaseBit := 0

end Sys2Proof
end

