-- ==== Sys2Proof/Machine/BitSource.lean ====
section
/-! DEFINITION. The BitSource port of the decoder: the bit cursor, `FetchBit` (R202) and `Fetch(n)` (R203). -/

namespace Sys2Proof

/-- The part of the decoder's working values that a fetch changes: `cur` (R55) and `overrun_logged` (R56). -/
structure BitCursor where
  cur : Nat
  overrunLogged : Bool
  deriving DecidableEq, Repr

/-- A cursor while something is being fetched: the cursor, and the bit addresses of the ROM_OVERRUN diagnostics that the
fetches have raised so far (R202), oldest first. -/
structure BitPort where
  cursor : BitCursor
  raised : List Nat
  deriving DecidableEq, Repr

/-- A port that has raised nothing yet. -/
def BitCursor.port (c : BitCursor) : BitPort := { cursor := c, raised := [] }

/-- The ROM bit at a bit address: bit `7 - (b mod 8)` of byte `b div 8` (R72, the same for both fetch units, R73); the
sentinel 1 past the end (R75). -/
def romBit (rom : List Byte) (b : Nat) : Bool :=
  match rom[b / 8]? with
  | some byte => byte.getLsbD (7 - b % 8)
  | none => true

/-- `FetchBit()` (R202): one bit; the cursor moves by 1 in any case; the first overrunning fetch of an invocation raises
ROM_OVERRUN with its bit address. -/
def fetchBit (rom : List Byte) (p : BitPort) : Bool × BitPort :=
  let b := p.cursor.cur
  if b / 8 < rom.length then
    (romBit rom b, { p with cursor := { p.cursor with cur := b + 1 } })
  else
    (romBit rom b,
      { cursor := { cur := b + 1, overrunLogged := true }
        raised := p.raised ++ (if p.cursor.overrunLogged then [] else [b]) })

/-- The loop of `Fetch(n)` (R203): `v` is the value of the bits fetched so far. -/
def fetchFrom (rom : List Byte) : Nat → Nat → BitPort → Nat × BitPort
  | 0, v, p => (v, p)
  | n + 1, v, p => fetchFrom rom n (2 * v + (fetchBit rom p).1.toNat) (fetchBit rom p).2

/-- `Fetch(n)` (R203): an `n`-bit unsigned field, first bit most significant (R74). -/
def fetchField (rom : List Byte) (n : Nat) (p : BitPort) : Nat × BitPort := fetchFrom rom n 0 p

/-- `count` fields of `n` bits each, in stream order (the pens of CopyRun, R207). -/
def fetchFields (rom : List Byte) (n : Nat) : Nat → BitPort → List Nat × BitPort
  | 0, p => ([], p)
  | count + 1, p =>
    let f := fetchField rom n p
    let fs := fetchFields rom n count f.2
    (f.1 :: fs.1, fs.2)

end Sys2Proof
end

