-- ==== Sys2Proof/Machine/State.lean ====
section
/-! DEFINITION. The state of one device (R20) as plain data, the reasons a step can stop, and the state after reset
(R340, R341). Three fields are the model's own: `config` (log 1), `inbox` (log 2), `outputs` (log 3). -/

namespace Sys2Proof.Machine

/-- The layer pixmaps as one list of (address, byte), addresses strictly rising, no byte 0 listed; the address of pixel
(x, y) of layer l is 262144*l + 512*y + x (R62, R70, R78; log 12). An unlisted address reads 0 ("cleared to zero at
reset", R62). -/
abbrev Memory := List Host.Cell

/-- The flip flags (R31 to R33). -/
structure Flip where
  x : Bool
  y : Bool
  swapXY : Bool
  deriving DecidableEq, Repr

/-- The clip rectangle and its four enables (R34 to R38). -/
structure Clip where
  x : Nat
  y : Nat
  width : Nat
  height : Nat
  ctrl : Byte
  deriving DecidableEq, Repr

/-- The RegisterFile (R21 to R50), in the order of 10_state.md. `int` fields that are only ever written with values
0..1023 are natural numbers; `blit_x` and `blit_y` are integers (log 15). -/
structure RegisterFile where
  destLayerMask : BitVec 16
  blitX : Int
  blitY : Int
  blitAddress : BitVec 24
  pen : Byte
  penMode : Bool
  penMask : Byte
  rectWidth : Nat
  rectHeight : Nat
  lineLength : Nat
  flip : Flip
  clip : Clip
  priorityIndex : BitVec 5
  priorityIndex2 : BitVec 5
  layerEnableMask : Byte
  layerEnableMask2 : Byte
  bgColor : Byte
  bgColor2 : Byte
  scrollX : Vector Nat 8
  scrollY : Vector Nat 8
  paletteBase : Vector (BitVec 16) 8
  paletteMask : Vector Byte 8
  transparencyPen : Vector Byte 8
  transparencyMask : Vector Byte 8
  deriving DecidableEq, Repr

/-- A diagnostic record: its code (R302) as the constructor, its info as the arguments. -/
inductive Diag where
  /-- Code 1: the bit address of the first overrunning fetch (R202). -/
  | romOverrun (bitAddress : Nat)
  /-- Code 2: the raw opcode and the cursor after it (R211). -/
  | unknownOpcode (op : BitVec 3) (cur : Nat)
  /-- Code 3: the unclamped size (R201, R210). -/
  | penSizeRange (size : Nat)
  /-- Code 4: the unclamped size (R201, R209). -/
  | argSizeRange (size : Nat)
  /-- Code 5: the start code (R161). -/
  | unknownStart (code : Byte)
  /-- Code 6: pair, index and combined value (R162). -/
  | undefinedRegister (p : PortPair) (index : BitVec 6) (v : BitVec 10)
  /-- Code 7: bits 3:2 of the value (R141). -/
  | flipReserved (bits : BitVec 2)
  /-- Code 8: the group (0 or 1) and the stored priority (R282). -/
  | priorityRange (group : Nat) (p : BitVec 5)
  /-- Code 9: raised by nothing (R302, D51). -/
  | lineLengthRange
  deriving DecidableEq, Repr

/-- The direction of an advance: `inc` is +1, `dec` is -1 (R56). -/
inductive Dir where
  | inc
  | dec
  deriving DecidableEq, Repr

/-- The working values of a running invocation (R55, R56). -/
structure Working where
  cursor : BitCursor
  penSize : Nat
  argSize : Nat
  x : Int
  y : Int
  x0 : Int
  xdir : Dir
  ydir : Dir
  deriving DecidableEq, Repr

/-- Where the decoder is: outside an invocation, in front of the header, or in front of a command. -/
inductive Decoder where
  | idle
  | header (c : BitCursor)
  | running (w : Working)
  deriving DecidableEq, Repr

/-- The fields that a getter can be asked for (R66: one per field of R21 to R52, the latches too, log 25). -/
inductive Field where
  | destLayerMask | blitX | blitY | blitAddress | pen | penMode | penMask
  | rectWidth | rectHeight | lineLength | flipX | flipY | flipSwapXY
  | clipX | clipY | clipWidth | clipHeight | clipCtrl
  | priorityIndex | priorityIndex2 | layerEnableMask | layerEnableMask2 | bgColor | bgColor2
  | scrollX (l : Layer) | scrollY (l : Layer) | paletteBase (l : Layer) | paletteMask (l : Layer)
  | transparencyPen (l : Layer) | transparencyMask (l : Layer)
  | selectedRegister | selectedRegisterB
  deriving DecidableEq, Repr

/-- The entries of the host interface (R65), each atomic (R80). -/
inductive HostEntry where
  /-- `select(b)`, `select_b(b)` (R131, R134). -/
  | select (p : PortPair) (b : Byte)
  /-- `apply(d)`, `apply_b(d)` (R132, R134). -/
  | apply (p : PortPair) (d : Byte)
  /-- `wide_write`: the canonical pair `select; apply` with nothing between (R137, R113; log 7). The select byte is
  bits 15:8 of the word, the apply byte bits 7:0. -/
  | wideWrite (p : PortPair) (w : BitVec 16)
  /-- `port_write(a, b)`, the single-port adapter (R136). -/
  | portWrite (address : Nat) (b : Byte)
  /-- `read_status()` (R313). -/
  | readStatus
  /-- A getter (R66). -/
  | get (f : Field)
  /-- `complete()` (R311). -/
  | complete
  /-- `composite_frame()` (R280). -/
  | compositeFrame
  /-- `reset()` (R340). -/
  | reset
  deriving DecidableEq, Repr

/-- What the device hands to the host (R65, device to host); diagnostics stand in `State.diag`. -/
inductive Output where
  /-- A token of an accepted start, with its family's delay (R160, R312). -/
  | token (family : DelayFamily) (delay : Nat)
  /-- The blit-complete pulse (R58, R311). -/
  | blitComplete
  /-- The byte of `read_status()` (R313). -/
  | status (b : Byte)
  /-- The value of a getter (R66). -/
  | value (f : Field) (v : Int)
  /-- A frame, rows top to bottom (R63, R280). -/
  | frame (rows : List (List FramePixel))
  deriving DecidableEq, Repr

/-- The state of the device (R20). -/
structure State where
  /-- The configuration (R7 to R17); the model's own field, changed by no step (log 1). -/
  config : Config
  /-- The RegisterFile. -/
  regs : RegisterFile
  /-- `selected_register`, latch A (R51). -/
  latchA : Byte
  /-- `selected_register_b`, latch B (R52). -/
  latchB : Byte
  /-- `LP[0..7]` (R62). -/
  mem : Memory
  /-- `PENDING` (R57). -/
  pending : Nat
  /-- `DIAG`, oldest record first (R60). -/
  diag : List Diag
  /-- The decoder's cursor and working values (R55, R56). -/
  decoder : Decoder
  /-- The host entries still to be served, first one first; the model's own field (log 2). -/
  inbox : List HostEntry
  /-- What was handed to the host, oldest first; the model's own field (log 3). -/
  outputs : List Output
  deriving DecidableEq, Repr

/-- Why a step faults. -/
inductive Fault where
  /-- Raised by the meaning of a bitstream item in a state in which the decoder is not in front of such an item (R56:
  the working values exist only during an invocation; R104: the header is its first item only). No step raises it: the
  decoder fetches a header only in front of one and a command only in front of one. Safe (log 13). -/
  | outsideInvocation
  deriving DecidableEq, Repr

/-- Why a step or a construction is refused. -/
inductive Refusal where
  /-- Raised by exec for an instruction that has no meaning yet. Safe. -/
  | notModelled (mnemonic : String)
  /-- Raised by `complete()` with PENDING = 0: "the entry is not enabled" (R311). Safe (log 14). -/
  | completeNotEnabled
  /-- Raised by the construction of a device from an illegal configuration (R345). Safe. -/
  | illegalConfiguration
  deriving DecidableEq, Repr

/-- The outcome of a step of this machine. -/
abbrev Result := Host.Outcome State Fault Refusal

/-- The RegisterFile at reset (R341). -/
def RegisterFile.reset : RegisterFile where
  destLayerMask := 0
  blitX := 0
  blitY := 0
  blitAddress := 0
  pen := 0
  penMode := false
  penMask := 0xFF
  rectWidth := 0
  rectHeight := 0
  lineLength := 0
  flip := { x := false, y := false, swapXY := false }
  clip := { x := 0, y := 0, width := 0, height := 0, ctrl := 0x0F }
  priorityIndex := 0
  priorityIndex2 := 0
  layerEnableMask := 0x0F
  layerEnableMask2 := 0x0F
  bgColor := 0
  bgColor2 := 0
  scrollX := #v[0, 0, 0, 0, 0, 0, 0, 0]
  scrollY := #v[0, 0, 0, 0, 0, 0, 0, 0]
  paletteBase := #v[0, 0, 0, 0, 0, 0, 0, 0]
  paletteMask := #v[0, 0, 0, 0, 0, 0, 0, 0]
  transparencyPen := #v[0, 0, 0, 0, 0, 0, 0, 0]
  transparencyMask := #v[0, 0, 0, 0, 0, 0, 0, 0]

/-- A device of a configuration right after reset (R340, R341), with nothing asked of it yet. -/
def State.fresh (cfg : Config) : State where
  config := cfg
  regs := RegisterFile.reset
  latchA := 0
  latchB := 0
  mem := []
  pending := 0
  diag := []
  decoder := .idle
  inbox := []
  outputs := []

/-- The machine right after reset, in the default configuration (log 1). -/
def State.reset : State := State.fresh Config.default

end Sys2Proof.Machine
end

