-- ==== Sys2Proof/Machine/Operands.lean ====
section
/-! DEFINITION. Operand forms: what a register takes of the combined value (R103, D26), sizes and their clamps (R104,
R105), the pen of a run (R204), coordinates and addresses (R78, R242). -/

namespace Sys2Proof.Machine

/-! ## Parts of the combined value -/

/-- Bits 7:0 of `v`: what an 8-bit field takes (D26). -/
def lowByte (v : BitVec 10) : Byte := v.extractLsb' 0 8

/-- Bits 4:0 of `v`: what a priority field takes (R103). -/
def lowFive (v : BitVec 10) : BitVec 5 := v.extractLsb' 0 5

/-- `v` zero-extended to 16 bits (R140, R166). -/
def wideValue (v : BitVec 10) : BitVec 16 := v.setWidth 16

/-- The flip flags in a FLIP value: bit 0 x, bit 1 y, bit 4 swap_xy (R103, R141). -/
def flipOf (v : BitVec 10) : Flip := { x := v.getLsbD 0, y := v.getLsbD 1, swapXY := v.getLsbD 4 }

/-- The reserved bits 3:2 of a FLIP value (R103, R141). -/
def flipReservedBits (v : BitVec 10) : BitVec 2 := v.extractLsb' 2 2

/-- `blit_address` with bits 7:0 replaced (R155). -/
def addrWithLo (a : BitVec 24) (d : Byte) : BitVec 24 := (a &&& 0xFFFF00) ||| d.setWidth 24

/-- `blit_address` with bits 15:8 replaced (R156). -/
def addrWithMid (a : BitVec 24) (d : Byte) : BitVec 24 := (a &&& 0xFF00FF) ||| (d.setWidth 24 <<< 8)

/-- `blit_address` with bits 23:16 replaced (R157). -/
def addrWithHi (a : BitVec 24) (d : Byte) : BitVec 24 := (a &&& 0x00FFFF) ||| (d.setWidth 24 <<< 16)

/-- The layer `l` of the first group (R280). -/
def layerA (l : Fin 4) : Layer := l.castLE (by decide)

/-- The layer `4 + l` of the second group (R280). -/
def layerB (l : Fin 4) : Layer := Fin.natAdd 4 l

/-! ## Operand sizes -/

/-- The largest `pen_size` (R104). -/
def maxPenSize : Nat := 4

/-- The largest `arg_size` (R104). -/
def maxArgSize : Nat := 8

/-- The size a field sets, before the clamp: field plus one (D18). -/
def sizeOf (f : Nat) : Nat := f + 1

/-- `clamp(v, m)` (R18). -/
def clampTo (v m : Nat) : Nat := if v > m then m else v

/-! ## Runs -/

/-- The step of a direction: +1 or -1 (R56). -/
def Dir.step : Dir → Int
  | .inc => 1
  | .dec => -1

/-- The direction of a flip flag: clear +1, set -1 (R31, R32, D19). -/
def dirOf (flipped : Bool) : Dir := if flipped then .dec else .inc

/-- `Merge(p)` (R204): the pen a run plots for the stream pen `p`. -/
def merge (r : RegisterFile) (p : Byte) : Byte :=
  if r.penMode then r.pen else (p &&& 0x0F) ||| (r.pen &&& 0xF0)

/-! ## Coordinates and addresses -/

/-- A coordinate reduced modulo 512, floor modulo (R18, R242). -/
def wrap512 (z : Int) : Nat := (z % 512).toNat

/-- The bytes of one layer pixmap (R62). -/
def layerSize : Nat := 262144

/-- The linear address `512*y + x` inside a layer (R78). -/
def linear (x y : Nat) : Nat := 512 * y + x

/-- The memory address of linear address `a` of layer `l` (log 12). -/
def layerAddress (l : Layer) (a : Nat) : Nat := layerSize * l.val + a

/-- The memory address of pixel (x, y) of layer `l`, for `x`, `y` below 512 (R78). -/
def pixelAddress (l : Layer) (x y : Nat) : Nat := layerAddress l (linear x y)

/-- `ceil_div(a, m)` (R18). -/
def ceilDiv (a m : Nat) : Nat := (a + m - 1) / m

end Sys2Proof.Machine
end

