-- ==== Sys2Proof/Machine/Flags.lean ====
section
/-! DEFINITION. The tests and flags: the clip test (R243), layer selection and enables (R21, R47), the transparency test
(R284), the busy level and the status byte (R57, R313). There are no condition codes (R60). -/

namespace Sys2Proof.Machine

/-- `lo <= z <= hi`, both ends inclusive (R243). -/
def inRange (lo hi z : Nat) : Bool := decide (lo ≤ z) && decide (z ≤ hi)

/-- The upper end of a clip range (R243): origin plus extent, or the extent register alone. -/
def clipUpper (form : ClipForm) (origin extent : Nat) : Nat :=
  match form with
  | .originPlusExtent => origin + extent
  | .extentOnly => extent

/-- `inside_x` of a wrapped x (R243). -/
def insideX (form : ClipForm) (k : Clip) (x : Nat) : Bool := inRange k.x (clipUpper form k.x k.width) x

/-- `inside_y` of a wrapped y (R243). -/
def insideY (form : ClipForm) (k : Clip) (y : Nat) : Bool := inRange k.y (clipUpper form k.y k.height) y

/-- `Rejected(x, y)` (R243): clip control bit 0 keeps inside x, bit 1 outside x, bit 2 inside y, bit 3 outside y. -/
def rejected (form : ClipForm) (k : Clip) (x y : Nat) : Bool :=
  (!k.ctrl.getLsbD 0 && insideX form k x) || (!k.ctrl.getLsbD 1 && !insideX form k x) ||
  (!k.ctrl.getLsbD 2 && insideY form k y) || (!k.ctrl.getLsbD 3 && !insideY form k y)

/-- `dest_layer_mask[l]` (R21, R244). -/
def layerSelected (mask : BitVec 16) (l : Layer) : Bool := mask.getLsbD l.val

/-- The enable bit of a layer in its group's mask, `en[l mod 4]` (R284). -/
def layerEnabled (en : Byte) (l : Layer) : Bool := en.getLsbD (l.val % 4)

/-- The transparency test of a source pixel (R284). -/
def transparent (r : RegisterFile) (l : Layer) (s : Byte) : Bool :=
  (s &&& r.transparencyMask.get l) == r.transparencyPen.get l

/-- The busy level (R57, R310). -/
def busy (s : State) : Bool := decide (s.pending > 0)

/-- The status byte: bit 0 the busy level, bits 7:1 zero (R313). -/
def statusByte (s : State) : Byte := if busy s then 1 else 0

/-- The number of a diagnostic code (R302). -/
def Diag.code : Diag → Nat
  | .romOverrun _ => 1
  | .unknownOpcode _ _ => 2
  | .penSizeRange _ => 3
  | .argSizeRange _ => 4
  | .unknownStart _ => 5
  | .undefinedRegister _ _ _ => 6
  | .flipReserved _ => 7
  | .priorityRange _ _ => 8
  | .lineLengthRange => 9

/-- "Gone wrong": a diagnostic was recorded since reset (R301). -/
def goneWrong (s : State) : Bool := !s.diag.isEmpty

end Sys2Proof.Machine
end

