-- ==== Sys2Proof/Machine/Memory.lean ====
section
/-! DEFINITION. The operations on the layer pixmaps' memory: one canonical form, one byte per access (R79). -/

namespace Sys2Proof.Machine

/-- What an unlisted address reads as: every pixmap byte is 0 at reset (R62, R341, the source's own value). -/
def Memory.blank : Byte := 0

/-- The number of addresses: eight layers (R70). -/
def Memory.size : Nat := 8 * layerSize

/-- The addresses of the cells rise strictly. -/
def Memory.rising : Memory → Bool
  | [] => true
  | [_] => true
  | c :: d :: m => decide (c.1 < d.1) && Memory.rising (d :: m)

/-- The canonical form: addresses strictly rising and inside the eight layers, no cell with the value that an unlisted
address reads as. -/
def Memory.wf (m : Memory) : Bool :=
  Memory.rising m && m.all (fun c => decide (c.1 < Memory.size) && !(c.2 == Memory.blank))

/-- `MemRead` of one pixmap byte (R18, R79). -/
def Memory.read : Memory → Nat → Byte
  | [], _ => Memory.blank
  | c :: m, a => if c.1 = a then c.2 else Memory.read m a

/-- Put a byte at an address of a memory in canonical form, in front of the first larger address. -/
def Memory.insert : Memory → Nat → Byte → Memory
  | [], a, v => [(a, v)]
  | c :: m, a, v =>
    if c.1 < a then c :: Memory.insert m a v
    else if c.1 = a then (a, v) :: m
    else (a, v) :: c :: m

/-- Take an address out of the list. -/
def Memory.erase (m : Memory) (a : Nat) : Memory := m.filter (fun c => decide (c.1 ≠ a))

/-- `MemWrite` of one pixmap byte (R18, R79). -/
def Memory.write (m : Memory) (a : Nat) (v : Byte) : Memory :=
  if v = Memory.blank then Memory.erase m a else Memory.insert m a v

/-- The cells of `n` addresses from `a`, all with the value `v`. -/
def Memory.run (v : Byte) : Nat → Nat → Memory
  | _, 0 => []
  | a, n + 1 => (a, v) :: Memory.run v (a + 1) n

/-- `n` stores of the same byte to the addresses `a`, `a + 1`, ... (the loops of R253 and R254). -/
def Memory.fill (m : Memory) (a n : Nat) (v : Byte) : Memory :=
  m.filter (fun c => decide (c.1 < a)) ++ (if v = Memory.blank then [] else Memory.run v a n) ++
    m.filter (fun c => decide (a + n ≤ c.1))

end Sys2Proof.Machine
end

