-- ==== Sys2Proof/Machine/Ops.lean ====
section
/-! DEFINITION. The named operations over the state: updates, latches, raising a diagnostic (the device's only "taking an
exception", R300; nothing is entered, so nothing returns, R317), scheduling a completion (R160), and the per-pixel store
`Plot` (R240). -/

namespace Sys2Proof.Machine

/-! ## Updates and accessors -/

/-- The state with another RegisterFile. -/
def State.withRegs (s : State) (r : RegisterFile) : State := { s with regs := r }

/-- The state with another pixmap memory. -/
def State.withMem (s : State) (m : Memory) : State := { s with mem := m }

/-- The state with another decoder state. -/
def State.withDecoder (s : State) (d : Decoder) : State := { s with decoder := d }

/-- The state with the host's remaining entries. -/
def State.withInbox (s : State) (es : List HostEntry) : State := { s with inbox := es }

/-- Hand something to the host. -/
def State.emit (s : State) (o : Output) : State := { s with outputs := s.outputs ++ [o] }

/-- The latch of a port pair (R51, R52). -/
def State.latch (s : State) (p : PortPair) : Byte :=
  match p with
  | .a => s.latchA
  | .b => s.latchB

/-- Set the latch of a port pair; the other pair's latch stays (R134). -/
def State.withLatch (s : State) (p : PortPair) (b : Byte) : State :=
  match p with
  | .a => { s with latchA := b }
  | .b => { s with latchB := b }

/-- The byte `LP[l][y][x]`, for `x`, `y` below 512 (R18). -/
def State.pixel (s : State) (l : Layer) (x y : Nat) : Byte := s.mem.read (pixelAddress l x y)

/-! ## Diagnostics and completion -/

/-- `raise Diag(code, info)` (R18, R300): append the record and go on. -/
def State.raise (s : State) (d : Diag) : State := { s with diag := s.diag ++ [d] }

/-- Raise a diagnostic when a condition holds. -/
def State.raiseIf (s : State) (c : Bool) (d : Diag) : State := if c then s.raise d else s

/-- `Schedule(fam)` (R160): one more pending token, handed to the host. -/
def State.schedule (s : State) (f : DelayFamily) : State :=
  { s with pending := s.pending + 1, outputs := s.outputs ++ [.token f (s.config.delay f)] }

/-- Undefined register index (R162): only the diagnostic. -/
def State.undefinedRegister (s : State) (p : PortPair) (index : BitVec 6) (v : BitVec 10) : State :=
  s.raise (.undefinedRegister p index v)

/-! ## Stores into the selected layers -/

/-- The eight layers. -/
def allLayers : List Layer := [0, 1, 2, 3, 4, 5, 6, 7]

/-- Do something to the memory for every layer that `dest_layer_mask` selects (R244). -/
def forSelected (mask : BitVec 16) (f : Layer → Memory → Memory) (m : Memory) : Memory :=
  allLayers.foldl (fun m l => if layerSelected mask l then f l m else m) m

/-- One byte store at a linear address into every selected layer (R244). -/
def storeSelected (mask : BitVec 16) (a : Nat) (c : Byte) (m : Memory) : Memory :=
  forSelected mask (fun l m => m.write (layerAddress l a) c) m

/-- Stores to `n` linear addresses from `a` into every selected layer (R253, R254). -/
def fillSelected (mask : BitVec 16) (a n : Nat) (c : Byte) (m : Memory) : Memory :=
  forSelected mask (fun l m => m.fill (layerAddress l a) n c) m

/-- The coordinates after the swap step of `Plot` (R241). -/
def swapIf (swap : Bool) (x y : Int) : Int × Int := if swap then (y, x) else (x, y)

/-- `Plot(x, y, c)` (R240): swap (R241), wrap (R242), clip (R243), store (R244). -/
def plot (x y : Int) (c : Byte) (s : State) : State :=
  let q := swapIf s.regs.flip.swapXY x y
  let px := wrap512 q.1
  let py := wrap512 q.2
  if rejected s.config.clipForm s.regs.clip px py then s
  else s.withMem (storeSelected s.regs.destLayerMask (linear px py) c s.mem)

/-- A run of plots along x (R206, R207): one pixel per pen, `x` advancing by `d` after each; the state after it. -/
def plotRun (y : Int) (d : Dir) : List Byte → Int → State → State
  | [], _, s => s
  | c :: cs, x, s => plotRun y d cs (x + d.step) (plot x y c s)

end Sys2Proof.Machine
end

