-- ==== Sys2Proof/Syntax.lean ====
section
/-! DEFINITION. The instructions: one constructor per row of spec/opcode_table.json. Two languages: bytes and canonical
byte pairs that the host writes on a port pair (30_encoding.md section 1), and the items of the bitstream in the ROM
(section 3). Operands: `v` is the 10-bit combined value of R102; `c` is the carry of a START pair, which START drops;
`n` is the decoded field N (a run covers N + 1 pixels); a stream pen is a byte that holds at most 4 bits. -/

namespace Sys2Proof

/-- The instruction set, both languages. -/
inductive Instr where
  /-- `SEL` (R131), `SELB` on pair B (R134): the select byte. -/
  | sel (p : PortPair) (b : Byte)
  /-- `APP` (R132), `APPB` on pair B (R134): the apply byte. -/
  | app (p : PortPair) (d : Byte)
  /-- `WR_DEST_LAYER` (R140). -/
  | wrDestLayer (v : BitVec 10)
  /-- `WR_FLIP` (R141). -/
  | wrFlip (v : BitVec 10)
  /-- `WR_BLIT_X` (R142). -/
  | wrBlitX (v : BitVec 10)
  /-- `WR_BLIT_Y` (R143). -/
  | wrBlitY (v : BitVec 10)
  /-- `WR_RECT_WIDTH` (R144). -/
  | wrRectWidth (v : BitVec 10)
  /-- `WR_RECT_HEIGHT` (R145). -/
  | wrRectHeight (v : BitVec 10)
  /-- `WR_LINE_LENGTH` (R146). -/
  | wrLineLength (v : BitVec 10)
  /-- `WR_PEN` (R147). -/
  | wrPen (v : BitVec 10)
  /-- `WR_PEN_MODE` (R148). -/
  | wrPenMode (v : BitVec 10)
  /-- `WR_PEN_MASK` (R149). -/
  | wrPenMask (v : BitVec 10)
  /-- `WR_CLIP_X` (R150). -/
  | wrClipX (v : BitVec 10)
  /-- `WR_CLIP_Y` (R151). -/
  | wrClipY (v : BitVec 10)
  /-- `WR_CLIP_WIDTH` (R152). -/
  | wrClipWidth (v : BitVec 10)
  /-- `WR_CLIP_HEIGHT` (R153). -/
  | wrClipHeight (v : BitVec 10)
  /-- `WR_CLIP_CTRL` (R154). -/
  | wrClipCtrl (v : BitVec 10)
  /-- `WR_ADDR_LO` (R155). -/
  | wrAddrLo (v : BitVec 10)
  /-- `WR_ADDR_MID` (R156). -/
  | wrAddrMid (v : BitVec 10)
  /-- `WR_ADDR_HI` (R157). -/
  | wrAddrHi (v : BitVec 10)
  /-- `WR_PRIORITY` (R158). -/
  | wrPriority (v : BitVec 10)
  /-- `WR_LAYER_ENABLE` (R159). -/
  | wrLayerEnable (v : BitVec 10)
  /-- `WR_BG_COLOR` (R163). -/
  | wrBgColor (v : BitVec 10)
  /-- `WR_SCROLL_X_0` (R164). -/
  | wrScrollX0 (v : BitVec 10)
  /-- `WR_SCROLL_X_1` (R164). -/
  | wrScrollX1 (v : BitVec 10)
  /-- `WR_SCROLL_X_2` (R164). -/
  | wrScrollX2 (v : BitVec 10)
  /-- `WR_SCROLL_X_3` (R164). -/
  | wrScrollX3 (v : BitVec 10)
  /-- `WR_SCROLL_Y_0` (R165). -/
  | wrScrollY0 (v : BitVec 10)
  /-- `WR_SCROLL_Y_1` (R165). -/
  | wrScrollY1 (v : BitVec 10)
  /-- `WR_SCROLL_Y_2` (R165). -/
  | wrScrollY2 (v : BitVec 10)
  /-- `WR_SCROLL_Y_3` (R165). -/
  | wrScrollY3 (v : BitVec 10)
  /-- `WR_PALETTE_BASE_0` (R166). -/
  | wrPaletteBase0 (v : BitVec 10)
  /-- `WR_PALETTE_BASE_1` (R166). -/
  | wrPaletteBase1 (v : BitVec 10)
  /-- `WR_PALETTE_BASE_2` (R166). -/
  | wrPaletteBase2 (v : BitVec 10)
  /-- `WR_PALETTE_BASE_3` (R166). -/
  | wrPaletteBase3 (v : BitVec 10)
  /-- `WR_PALETTE_MASK_0` (R167). -/
  | wrPaletteMask0 (v : BitVec 10)
  /-- `WR_PALETTE_MASK_1` (R167). -/
  | wrPaletteMask1 (v : BitVec 10)
  /-- `WR_PALETTE_MASK_2` (R167). -/
  | wrPaletteMask2 (v : BitVec 10)
  /-- `WR_PALETTE_MASK_3` (R167). -/
  | wrPaletteMask3 (v : BitVec 10)
  /-- `WR_TRANS_PEN_0` (R168). -/
  | wrTransPen0 (v : BitVec 10)
  /-- `WR_TRANS_PEN_1` (R168). -/
  | wrTransPen1 (v : BitVec 10)
  /-- `WR_TRANS_PEN_2` (R168). -/
  | wrTransPen2 (v : BitVec 10)
  /-- `WR_TRANS_PEN_3` (R168). -/
  | wrTransPen3 (v : BitVec 10)
  /-- `WR_TRANS_MASK_0` (R169). -/
  | wrTransMask0 (v : BitVec 10)
  /-- `WR_TRANS_MASK_1` (R169). -/
  | wrTransMask1 (v : BitVec 10)
  /-- `WR_TRANS_MASK_2` (R169). -/
  | wrTransMask2 (v : BitVec 10)
  /-- `WR_TRANS_MASK_3` (R169). -/
  | wrTransMask3 (v : BitVec 10)
  /-- `WRB_PRIORITY2` (R170). -/
  | wrbPriority2 (v : BitVec 10)
  /-- `WRB_LAYER_ENABLE2` (R171). -/
  | wrbLayerEnable2 (v : BitVec 10)
  /-- `WRB_BG_COLOR2` (R172). -/
  | wrbBgColor2 (v : BitVec 10)
  /-- `WRB_SCROLL_X_4` (R164). -/
  | wrbScrollX4 (v : BitVec 10)
  /-- `WRB_SCROLL_X_5` (R164). -/
  | wrbScrollX5 (v : BitVec 10)
  /-- `WRB_SCROLL_X_6` (R164). -/
  | wrbScrollX6 (v : BitVec 10)
  /-- `WRB_SCROLL_X_7` (R164). -/
  | wrbScrollX7 (v : BitVec 10)
  /-- `WRB_SCROLL_Y_4` (R165). -/
  | wrbScrollY4 (v : BitVec 10)
  /-- `WRB_SCROLL_Y_5` (R165). -/
  | wrbScrollY5 (v : BitVec 10)
  /-- `WRB_SCROLL_Y_6` (R165). -/
  | wrbScrollY6 (v : BitVec 10)
  /-- `WRB_SCROLL_Y_7` (R165). -/
  | wrbScrollY7 (v : BitVec 10)
  /-- `WRB_PALETTE_BASE_4` (R166). -/
  | wrbPaletteBase4 (v : BitVec 10)
  /-- `WRB_PALETTE_BASE_5` (R166). -/
  | wrbPaletteBase5 (v : BitVec 10)
  /-- `WRB_PALETTE_BASE_6` (R166). -/
  | wrbPaletteBase6 (v : BitVec 10)
  /-- `WRB_PALETTE_BASE_7` (R166). -/
  | wrbPaletteBase7 (v : BitVec 10)
  /-- `WRB_PALETTE_MASK_4` (R167). -/
  | wrbPaletteMask4 (v : BitVec 10)
  /-- `WRB_PALETTE_MASK_5` (R167). -/
  | wrbPaletteMask5 (v : BitVec 10)
  /-- `WRB_PALETTE_MASK_6` (R167). -/
  | wrbPaletteMask6 (v : BitVec 10)
  /-- `WRB_PALETTE_MASK_7` (R167). -/
  | wrbPaletteMask7 (v : BitVec 10)
  /-- `WRB_TRANS_PEN_4` (R168). -/
  | wrbTransPen4 (v : BitVec 10)
  /-- `WRB_TRANS_PEN_5` (R168). -/
  | wrbTransPen5 (v : BitVec 10)
  /-- `WRB_TRANS_PEN_6` (R168). -/
  | wrbTransPen6 (v : BitVec 10)
  /-- `WRB_TRANS_PEN_7` (R168). -/
  | wrbTransPen7 (v : BitVec 10)
  /-- `WRB_TRANS_MASK_4` (R169). -/
  | wrbTransMask4 (v : BitVec 10)
  /-- `WRB_TRANS_MASK_5` (R169). -/
  | wrbTransMask5 (v : BitVec 10)
  /-- `WRB_TRANS_MASK_6` (R169). -/
  | wrbTransMask6 (v : BitVec 10)
  /-- `WRB_TRANS_MASK_7` (R169). -/
  | wrbTransMask7 (v : BitVec 10)
  /-- `WR__undefined_index` (R162), on either pair. -/
  | wrUndefinedIndex (p : PortPair) (index : BitVec 6) (v : BitVec 10)
  /-- `GO_FILL_ALL` (R160, R250). -/
  | goFillAll (c : BitVec 2)
  /-- `GO_FILL_FROM_XY` (R160, R251). -/
  | goFillFromXY (c : BitVec 2)
  /-- `GO_FILL_RECT` (R160, R252). -/
  | goFillRect (c : BitVec 2)
  /-- `GO_FILL_BAND` (R160, R253). -/
  | goFillBand (c : BitVec 2)
  /-- `GO_HLINE` (R160, R256). -/
  | goHline (c : BitVec 2)
  /-- `GO_VLINE` (R160, R257). -/
  | goVline (c : BitVec 2)
  /-- `GO_ROM_DRAW` (R160, R200). -/
  | goRomDraw (c : BitVec 2)
  /-- `GO__unknown_start_code` (R161). -/
  | goUnknown (c : BitVec 2) (code : Byte)
  /-- `HDR` (R104, R201): the two nibbles of the header. -/
  | hdr (hp ha : BitVec 4)
  /-- `NEXT`, NextLine (R205). -/
  | next
  /-- `DRAW`, DrawRun (R206). -/
  | draw (n : Nat) (p : Byte)
  /-- `COPY`, CopyRun (R207): the first pen and the N further ones. -/
  | copy (p0 : Byte) (ps : List Byte)
  /-- `SKIP`, Skip (R208). -/
  | skip (n : Nat)
  /-- `ARGSZ`, ChangeArgSize (R209). -/
  | argsz (f : BitVec 4)
  /-- `PENSZ`, ChangePenSize (R210). -/
  | pensz (f : BitVec 3)
  /-- `UNK`, Unknown (R211): the raw opcode. -/
  | unk (op : BitVec 3)
  /-- `STOP`, Stop (R212). -/
  | stop
  deriving DecidableEq, Repr

end Sys2Proof
end

