-- ==== Sys2Proof/Machine/Bitstream.lean ====
section
/-! DEFINITION. The bitstream decoder (41_bitstream_decoder.md): the start of an invocation, the meanings of the header
and of the eight operations, the end of an invocation. An invocation is several steps: GO_ROM_DRAW puts the decoder in
front of the header, each further step fetches one item and runs it, Stop and Unknown end it (log 4). A meaning finds the
cursor after the item's last bit, where the fetch has left it. -/

namespace Sys2Proof.Machine

/-! ## The invocation -/

/-- The start cursor `(blit_address * U) mod (8 * L)` (R76, R201, C1). -/
def startCursor (s : State) : Nat := (s.regs.blitAddress.toNat * s.config.unitBits) % (8 * s.config.romLength)

/-- `RomDraw()` up to the header (R200, R201): the cursor is set and `overrun_logged` cleared; nothing else changes. -/
def startRomDraw (s : State) : State :=
  s.withDecoder (.header { cur := startCursor s, overrunLogged := false })

/-- The working values that `Init` makes from the registers, with given operand sizes (R201). -/
def initWorking (r : RegisterFile) (c : BitCursor) (penSize argSize : Nat) : Working where
  cursor := c
  penSize := penSize
  argSize := argSize
  x := r.blitX
  y := r.blitY
  x0 := r.blitX
  xdir := dirOf r.flip.x
  ydir := dirOf r.flip.y

/-- Raise PEN_SIZE_RANGE for a decoded size above 4; the info is the unclamped size (R201, R210). -/
def State.checkPenSize (s : State) (size : Nat) : State :=
  s.raiseIf (decide (size > maxPenSize)) (.penSizeRange size)

/-- Raise ARG_SIZE_RANGE for a decoded size above 8 (R201, R209). -/
def State.checkArgSize (s : State) (size : Nat) : State :=
  s.raiseIf (decide (size > maxArgSize)) (.argSizeRange size)

/-- The new `blit_address`, `ceil_div(cur, U) mod 2^24` (R213). -/
def endAddress (cfg : Config) (cur : Nat) : BitVec 24 := BitVec.ofNat 24 (ceilDiv cur cfg.unitBits)

/-- The end of an invocation: `Finish()` (R213), then the `Schedule(ROM)` that follows `RomDraw()` (R160; log 5). -/
def finishInvocation (cur : Nat) (s : State) : State :=
  ((s.withRegs { s.regs with blitAddress := endAddress s.config cur }).withDecoder .idle).schedule .rom

/-- Run a command's effect on the working values; outside an invocation there are none (log 13). -/
def onWorking (s : State) (f : Working → State) : Result :=
  match s.decoder with
  | .running w => .next (f w)
  | .header _ => .fault .outsideInvocation
  | .idle => .fault .outsideInvocation

/-! ## The operations -/

/-- The header's effect (R104, R201): both sizes, clamped, pen diagnostic before arg diagnostic (R303). -/
def runHeader (hp ha : Nat) (c : BitCursor) (s : State) : State :=
  ((s.checkPenSize (sizeOf hp)).checkArgSize (sizeOf ha)).withDecoder
    (.running (initWorking s.regs c (clampTo (sizeOf hp) maxPenSize) (clampTo (sizeOf ha) maxArgSize)))

/-- NextLine (R205). -/
def runNext (s : State) (w : Working) : State :=
  s.withDecoder (.running { w with y := w.y + w.ydir.step, x := w.x0 })

/-- Plot a run of pens from the current position and leave `x` past it (R206, R207). -/
def runPens (pens : List Byte) (s : State) (w : Working) : State :=
  (plotRun w.y w.xdir pens w.x s).withDecoder
    (.running { w with x := w.x + w.xdir.step * (pens.length : Int) })

/-- DrawRun (R206): `N + 1` pixels of one merged pen. -/
def runDraw (n : Nat) (p : Byte) (s : State) (w : Working) : State :=
  runPens (List.replicate (n + 1) (merge s.regs p)) s w

/-- CopyRun (R207): one merged pen per pixel. The pens are fetched before the first plot; the rule says that this order
is not observable (log 22). -/
def runCopy (pens : List Byte) (s : State) (w : Working) : State :=
  runPens (pens.map (merge s.regs)) s w

/-- Skip (R208): `x` advances by `N + 1` in the run direction. -/
def runSkip (n : Nat) (s : State) (w : Working) : State :=
  s.withDecoder (.running { w with x := w.x + w.xdir.step * ((n : Int) + 1) })

/-- ChangeArgSize (R209). -/
def runArgSize (f : Nat) (s : State) (w : Working) : State :=
  (s.checkArgSize (sizeOf f)).withDecoder (.running { w with argSize := clampTo (sizeOf f) maxArgSize })

/-- ChangePenSize (R210). -/
def runPenSize (f : Nat) (s : State) (w : Working) : State :=
  (s.checkPenSize (sizeOf f)).withDecoder (.running { w with penSize := clampTo (sizeOf f) maxPenSize })

/-- Unknown (R211): the diagnostic with the raw opcode and the cursor after it, then as Stop. -/
def runUnknown (op : BitVec 3) (s : State) (w : Working) : State :=
  finishInvocation w.cursor.cur (s.raise (.unknownOpcode op w.cursor.cur))

/-- Stop (R212). -/
def runStop (s : State) (w : Working) : State := finishInvocation w.cursor.cur s

/-! ## Meanings -/

/-- `GO_ROM_DRAW` (R160, R200). -/
def execGoRomDraw (_c : BitVec 2) (s : State) : Result := .next (startRomDraw s)

/-- `HDR` (R201). -/
def execHdr (hp ha : BitVec 4) (s : State) : Result :=
  match s.decoder with
  | .header c => .next (runHeader hp.toNat ha.toNat c s)
  | .running _ => .fault .outsideInvocation
  | .idle => .fault .outsideInvocation

/-- `NEXT` (R205). -/
def execNext (s : State) : Result := onWorking s (runNext s)

/-- `DRAW` (R206). -/
def execDraw (n : Nat) (p : Byte) (s : State) : Result := onWorking s (runDraw n p s)

/-- `COPY` (R207). -/
def execCopy (p0 : Byte) (ps : List Byte) (s : State) : Result := onWorking s (runCopy (p0 :: ps) s)

/-- `SKIP` (R208). -/
def execSkip (n : Nat) (s : State) : Result := onWorking s (runSkip n s)

/-- `ARGSZ` (R209). -/
def execArgsz (f : BitVec 4) (s : State) : Result := onWorking s (runArgSize f.toNat s)

/-- `PENSZ` (R210). -/
def execPensz (f : BitVec 3) (s : State) : Result := onWorking s (runPenSize f.toNat s)

/-- `UNK` (R211). -/
def execUnk (op : BitVec 3) (s : State) : Result := onWorking s (runUnknown op s)

/-- `STOP` (R212). -/
def execStop (s : State) : Result := onWorking s (runStop s)

end Sys2Proof.Machine
end

