-- ==== Sys2Proof/WellFormed.lean ====
section
/-! DEFINITION. Which instructions have an encoding. The host language depends on the configuration's layouts and
STARTMAP (R106 to R108), the bitstream language on the command table and on the current operand sizes (R105). -/

namespace Sys2Proof

/-- A layout of an existing pair reaches the register (R10, R106, R107, R134). -/
def Config.hasReg (cfg : Config) (r : Reg) : Bool := (cfg.index .a r).isSome || (cfg.index .b r).isSome

/-- The start operation can be started: START has an index and the operation a code (R108). -/
def Config.hasStart (cfg : Config) (o : StartOp) : Bool := cfg.hasReg .start && (cfg.startCode o).isSome

/-- The command table has an opcode for the operation (R9). -/
def Config.hasOp (cfg : Config) (o : Operation) : Bool := (cfg.opcode o).isSome

/-- The index is undefined on the pair (R110, R162). -/
def Config.undefinedIndex (cfg : Config) (p : PortPair) (index : BitVec 6) : Bool := (cfg.reg p index).isNone

/-- The operand sizes are in their ranges, 1..8 and 1..4 (R56). -/
def sizesLegal (argSize penSize : Nat) : Bool :=
  decide (1 ≤ argSize) && decide (argSize ≤ 8) && decide (1 ≤ penSize) && decide (penSize ≤ 4)

/-- A stream pen fits in `penSize` bits (R105). -/
def penFits (penSize : Nat) (p : Byte) : Bool := decide (p.toNat < 2 ^ penSize)

/-- The instruction has an encoding under the configuration, with `argSize` and `penSize` the current operand sizes. -/
def Instr.wellFormed (cfg : Config) (argSize penSize : Nat) : Instr → Bool
  | .sel _ _ => true
  | .app _ _ => true
  | .wrDestLayer _ => cfg.hasReg .destLayer
  | .wrFlip _ => cfg.hasReg .flip
  | .wrBlitX _ => cfg.hasReg .blitX
  | .wrBlitY _ => cfg.hasReg .blitY
  | .wrRectWidth _ => cfg.hasReg .rectWidth
  | .wrRectHeight _ => cfg.hasReg .rectHeight
  | .wrLineLength _ => cfg.hasReg .lineLength
  | .wrPen _ => cfg.hasReg .pen
  | .wrPenMode _ => cfg.hasReg .penMode
  | .wrPenMask _ => cfg.hasReg .penMask
  | .wrClipX _ => cfg.hasReg .clipX
  | .wrClipY _ => cfg.hasReg .clipY
  | .wrClipWidth _ => cfg.hasReg .clipWidth
  | .wrClipHeight _ => cfg.hasReg .clipHeight
  | .wrClipCtrl _ => cfg.hasReg .clipCtrl
  | .wrAddrLo _ => cfg.hasReg .addrLo
  | .wrAddrMid _ => cfg.hasReg .addrMid
  | .wrAddrHi _ => cfg.hasReg .addrHi
  | .wrPriority _ => cfg.hasReg .priority
  | .wrLayerEnable _ => cfg.hasReg .layerEnable
  | .wrBgColor _ => cfg.hasReg .bgColor
  | .wrScrollX0 _ => cfg.hasReg (.scrollX 0)
  | .wrScrollX1 _ => cfg.hasReg (.scrollX 1)
  | .wrScrollX2 _ => cfg.hasReg (.scrollX 2)
  | .wrScrollX3 _ => cfg.hasReg (.scrollX 3)
  | .wrScrollY0 _ => cfg.hasReg (.scrollY 0)
  | .wrScrollY1 _ => cfg.hasReg (.scrollY 1)
  | .wrScrollY2 _ => cfg.hasReg (.scrollY 2)
  | .wrScrollY3 _ => cfg.hasReg (.scrollY 3)
  | .wrPaletteBase0 _ => cfg.hasReg (.paletteBase 0)
  | .wrPaletteBase1 _ => cfg.hasReg (.paletteBase 1)
  | .wrPaletteBase2 _ => cfg.hasReg (.paletteBase 2)
  | .wrPaletteBase3 _ => cfg.hasReg (.paletteBase 3)
  | .wrPaletteMask0 _ => cfg.hasReg (.paletteMask 0)
  | .wrPaletteMask1 _ => cfg.hasReg (.paletteMask 1)
  | .wrPaletteMask2 _ => cfg.hasReg (.paletteMask 2)
  | .wrPaletteMask3 _ => cfg.hasReg (.paletteMask 3)
  | .wrTransPen0 _ => cfg.hasReg (.transPen 0)
  | .wrTransPen1 _ => cfg.hasReg (.transPen 1)
  | .wrTransPen2 _ => cfg.hasReg (.transPen 2)
  | .wrTransPen3 _ => cfg.hasReg (.transPen 3)
  | .wrTransMask0 _ => cfg.hasReg (.transMask 0)
  | .wrTransMask1 _ => cfg.hasReg (.transMask 1)
  | .wrTransMask2 _ => cfg.hasReg (.transMask 2)
  | .wrTransMask3 _ => cfg.hasReg (.transMask 3)
  | .wrbPriority2 _ => cfg.hasReg .priority2
  | .wrbLayerEnable2 _ => cfg.hasReg .layerEnable2
  | .wrbBgColor2 _ => cfg.hasReg .bgColor2
  | .wrbScrollX4 _ => cfg.hasReg (.scrollX 4)
  | .wrbScrollX5 _ => cfg.hasReg (.scrollX 5)
  | .wrbScrollX6 _ => cfg.hasReg (.scrollX 6)
  | .wrbScrollX7 _ => cfg.hasReg (.scrollX 7)
  | .wrbScrollY4 _ => cfg.hasReg (.scrollY 4)
  | .wrbScrollY5 _ => cfg.hasReg (.scrollY 5)
  | .wrbScrollY6 _ => cfg.hasReg (.scrollY 6)
  | .wrbScrollY7 _ => cfg.hasReg (.scrollY 7)
  | .wrbPaletteBase4 _ => cfg.hasReg (.paletteBase 4)
  | .wrbPaletteBase5 _ => cfg.hasReg (.paletteBase 5)
  | .wrbPaletteBase6 _ => cfg.hasReg (.paletteBase 6)
  | .wrbPaletteBase7 _ => cfg.hasReg (.paletteBase 7)
  | .wrbPaletteMask4 _ => cfg.hasReg (.paletteMask 4)
  | .wrbPaletteMask5 _ => cfg.hasReg (.paletteMask 5)
  | .wrbPaletteMask6 _ => cfg.hasReg (.paletteMask 6)
  | .wrbPaletteMask7 _ => cfg.hasReg (.paletteMask 7)
  | .wrbTransPen4 _ => cfg.hasReg (.transPen 4)
  | .wrbTransPen5 _ => cfg.hasReg (.transPen 5)
  | .wrbTransPen6 _ => cfg.hasReg (.transPen 6)
  | .wrbTransPen7 _ => cfg.hasReg (.transPen 7)
  | .wrbTransMask4 _ => cfg.hasReg (.transMask 4)
  | .wrbTransMask5 _ => cfg.hasReg (.transMask 5)
  | .wrbTransMask6 _ => cfg.hasReg (.transMask 6)
  | .wrbTransMask7 _ => cfg.hasReg (.transMask 7)
  | .wrUndefinedIndex p index _ => cfg.undefinedIndex p index
  | .goFillAll _ => cfg.hasStart .fillAll
  | .goFillFromXY _ => cfg.hasStart .fillFromXY
  | .goFillRect _ => cfg.hasStart .fillRect
  | .goFillBand _ => cfg.hasStart .fillBand
  | .goHline _ => cfg.hasStart .hline
  | .goVline _ => cfg.hasStart .vline
  | .goRomDraw _ => cfg.hasStart .romDraw
  | .goUnknown _ code => cfg.hasReg .start && (cfg.startOp code).isNone
  | .hdr _ _ => true
  | .next => cfg.hasOp .nextLine
  | .draw n p => cfg.hasOp .drawRun && sizesLegal argSize penSize && decide (n < 2 ^ argSize) && penFits penSize p
  | .copy p0 ps =>
    cfg.hasOp .copyRun && sizesLegal argSize penSize && decide (ps.length < 2 ^ argSize) &&
      (p0 :: ps).all (penFits penSize)
  | .skip n => cfg.hasOp .skip && sizesLegal argSize penSize && decide (n < 2 ^ argSize)
  | .argsz _ => cfg.hasOp .changeArgSize
  | .pensz _ => cfg.hasOp .changePenSize
  | .unk op => decide (cfg.operation op = .unknown)
  | .stop => cfg.hasOp .stop

end Sys2Proof
end

