-- ==== Sys2Proof/Decode.lean ====
section
/-! DEFINITION. The decoders and the encoders of both languages (30_encoding.md). Decoding is total: every byte on a port
and every bit pattern in the ROM is accepted (R110); what no row names decodes to a default row, by name. -/

namespace Sys2Proof

/-! ## Fields of a host pair word (R101, R102): select byte in bits 15:8, apply byte in bits 7:0 -/

/-- The register index, bits 13:8 (select bits 5:0). -/
def wordIndex (w : BitVec 16) : BitVec 6 := w.extractLsb' 8 6

/-- The carry, bits 15:14 (select bits 7:6). -/
def wordCarry (w : BitVec 16) : BitVec 2 := w.extractLsb' 14 2

/-- The data, bits 7:0 (the apply byte). -/
def wordData (w : BitVec 16) : Byte := w.extractLsb' 0 8

/-- The select byte, bits 15:8. -/
def wordSelect (w : BitVec 16) : Byte := w.extractLsb' 8 8

/-- The combined value `v = (carry << 8) | data` (R102). -/
def combinedValue (carry : BitVec 2) (data : Byte) : BitVec 10 := carry ++ data

/-- The word of a select byte and an apply byte. -/
def pairWord (sel dat : Byte) : BitVec 16 := sel ++ dat

/-- The word that carries `v` to the register at `index` (R113, `WR <REG>, <v>`). -/
def valueWord (index : BitVec 6) (v : BitVec 10) : BitVec 16 := (v.extractLsb' 8 2 ++ index) ++ v.extractLsb' 0 8

/-- The word that applies a start code, with a carry that START drops (R103). -/
def startWord (index : BitVec 6) (c : BitVec 2) (code : Byte) : BitVec 16 := (c ++ index) ++ code

/-! ## Decoding host words -/

/-- The row of a start code (R108, R160); no entry of STARTMAP is UNKNOWN_START (R161). -/
def instrOfStart (cfg : Config) (c : BitVec 2) (code : Byte) : Instr :=
  match cfg.startOp code with
  | some .fillAll => .goFillAll c
  | some .fillFromXY => .goFillFromXY c
  | some .fillRect => .goFillRect c
  | some .fillBand => .goFillBand c
  | some .hline => .goHline c
  | some .vline => .goVline c
  | some .romDraw => .goRomDraw c
  | none => .goUnknown c code

/-- The row of a register (R106, R107), whichever pair's layout reaches it: with another layout only the index changes, not
the rule (40_register_protocol.md, opening). -/
def instrOfReg (cfg : Config) (r : Reg) (carry : BitVec 2) (data : Byte) : Instr :=
  let v := combinedValue carry data
  match r with
  | .destLayer => .wrDestLayer v
  | .flip => .wrFlip v
  | .blitX => .wrBlitX v
  | .blitY => .wrBlitY v
  | .rectWidth => .wrRectWidth v
  | .rectHeight => .wrRectHeight v
  | .lineLength => .wrLineLength v
  | .pen => .wrPen v
  | .penMode => .wrPenMode v
  | .penMask => .wrPenMask v
  | .clipX => .wrClipX v
  | .clipY => .wrClipY v
  | .clipWidth => .wrClipWidth v
  | .clipHeight => .wrClipHeight v
  | .clipCtrl => .wrClipCtrl v
  | .addrLo => .wrAddrLo v
  | .addrMid => .wrAddrMid v
  | .addrHi => .wrAddrHi v
  | .start => instrOfStart cfg carry data
  | .priority => .wrPriority v
  | .layerEnable => .wrLayerEnable v
  | .bgColor => .wrBgColor v
  | .priority2 => .wrbPriority2 v
  | .layerEnable2 => .wrbLayerEnable2 v
  | .bgColor2 => .wrbBgColor2 v
  | .scrollX 0 => .wrScrollX0 v
  | .scrollX 1 => .wrScrollX1 v
  | .scrollX 2 => .wrScrollX2 v
  | .scrollX 3 => .wrScrollX3 v
  | .scrollX 4 => .wrbScrollX4 v
  | .scrollX 5 => .wrbScrollX5 v
  | .scrollX 6 => .wrbScrollX6 v
  | .scrollX 7 => .wrbScrollX7 v
  | .scrollY 0 => .wrScrollY0 v
  | .scrollY 1 => .wrScrollY1 v
  | .scrollY 2 => .wrScrollY2 v
  | .scrollY 3 => .wrScrollY3 v
  | .scrollY 4 => .wrbScrollY4 v
  | .scrollY 5 => .wrbScrollY5 v
  | .scrollY 6 => .wrbScrollY6 v
  | .scrollY 7 => .wrbScrollY7 v
  | .paletteBase 0 => .wrPaletteBase0 v
  | .paletteBase 1 => .wrPaletteBase1 v
  | .paletteBase 2 => .wrPaletteBase2 v
  | .paletteBase 3 => .wrPaletteBase3 v
  | .paletteBase 4 => .wrbPaletteBase4 v
  | .paletteBase 5 => .wrbPaletteBase5 v
  | .paletteBase 6 => .wrbPaletteBase6 v
  | .paletteBase 7 => .wrbPaletteBase7 v
  | .paletteMask 0 => .wrPaletteMask0 v
  | .paletteMask 1 => .wrPaletteMask1 v
  | .paletteMask 2 => .wrPaletteMask2 v
  | .paletteMask 3 => .wrPaletteMask3 v
  | .paletteMask 4 => .wrbPaletteMask4 v
  | .paletteMask 5 => .wrbPaletteMask5 v
  | .paletteMask 6 => .wrbPaletteMask6 v
  | .paletteMask 7 => .wrbPaletteMask7 v
  | .transPen 0 => .wrTransPen0 v
  | .transPen 1 => .wrTransPen1 v
  | .transPen 2 => .wrTransPen2 v
  | .transPen 3 => .wrTransPen3 v
  | .transPen 4 => .wrbTransPen4 v
  | .transPen 5 => .wrbTransPen5 v
  | .transPen 6 => .wrbTransPen6 v
  | .transPen 7 => .wrbTransPen7 v
  | .transMask 0 => .wrTransMask0 v
  | .transMask 1 => .wrTransMask1 v
  | .transMask 2 => .wrTransMask2 v
  | .transMask 3 => .wrTransMask3 v
  | .transMask 4 => .wrbTransMask4 v
  | .transMask 5 => .wrbTransMask5 v
  | .transMask 6 => .wrbTransMask6 v
  | .transMask 7 => .wrbTransMask7 v

/-- The instruction of a canonical pair of bytes on a port pair (R132, R134): the layout names the register; an index it
does not define is the undefined-index row (R162). -/
def decodeWord (cfg : Config) (p : PortPair) (w : BitVec 16) : Instr :=
  match cfg.reg p (wordIndex w) with
  | some r => instrOfReg cfg r (wordCarry w) (wordData w)
  | none => .wrUndefinedIndex p (wordIndex w) (combinedValue (wordCarry w) (wordData w))

/-! ## Decoding the bitstream -/

/-- A stream pen, as a byte. -/
def penOf (v : Nat) : Byte := BitVec.ofNat 8 v

/-- The header at the cursor: eight bits, high nibble first (R104, R201). -/
def decodeHeader (cfg : Config) (p : BitPort) : Instr × BitPort :=
  let h := fetchField cfg.rom 8 p
  (.hdr ((BitVec.ofNat 8 h.1).extractLsb' 4 4) ((BitVec.ofNat 8 h.1).extractLsb' 0 4), h.2)

/-- The operands of an operation, fetched after its opcode (R105). `op` is the raw opcode. -/
def decodeOperands (cfg : Config) (argSize penSize : Nat) (op : BitVec 3) (p : BitPort) : Instr × BitPort :=
  match cfg.operation op with
  | .nextLine => (.next, p)
  | .drawRun =>
    let n := fetchField cfg.rom argSize p
    let c := fetchField cfg.rom penSize n.2
    (.draw n.1 (penOf c.1), c.2)
  | .copyRun =>
    let n := fetchField cfg.rom argSize p
    let c := fetchField cfg.rom penSize n.2
    let cs := fetchFields cfg.rom penSize n.1 c.2
    (.copy (penOf c.1) (cs.1.map penOf), cs.2)
  | .skip =>
    let n := fetchField cfg.rom argSize p
    (.skip n.1, n.2)
  | .changeArgSize =>
    let f := fetchField cfg.rom 4 p
    (.argsz (BitVec.ofNat 4 f.1), f.2)
  | .changePenSize =>
    let f := fetchField cfg.rom 3 p
    (.pensz (BitVec.ofNat 3 f.1), f.2)
  | .unknown => (.unk op, p)
  | .stop => (.stop, p)

/-- The command at the cursor: a 3-bit opcode through CT, then its operands, no padding (R105, R200). -/
def decodeCommand (cfg : Config) (argSize penSize : Nat) (p : BitPort) : Instr × BitPort :=
  let op := fetchField cfg.rom 3 p
  decodeOperands cfg argSize penSize (BitVec.ofNat 3 op.1) op.2

/-! ## Encoding -/

/-- What an instruction is encoded as: one byte on the select or the apply port of a pair, a canonical pair of bytes, or
bits of the stream, first fetched first. -/
inductive Encoding where
  | selectByte (p : PortPair) (b : Byte)
  | applyByte (p : PortPair) (d : Byte)
  | word (p : PortPair) (w : BitVec 16)
  | stream (bits : List Bool)
  deriving DecidableEq, Repr

/-- The `n` bits of a field, most significant first (R74). -/
def fieldBits : Nat → Nat → List Bool
  | 0, _ => []
  | n + 1, v => v.testBit n :: fieldBits n v

/-- A write of `v` to a register: on pair `p` where its layout reaches the register, else on the other pair (log 24). -/
def encodeReg (cfg : Config) (p : PortPair) (r : Reg) (v : BitVec 10) : Option Encoding :=
  (cfg.place p r).map (fun q => .word q.1 (valueWord q.2 v))

/-- A write of a start code (R113, `GO <OP>`). -/
def encodeStart (cfg : Config) (c : BitVec 2) (code : Option Byte) : Option Encoding :=
  match cfg.place .a .start, code with
  | some q, some k => some (.word q.1 (startWord q.2 c k))
  | _, _ => none

/-- A bitstream command: the opcode of its operation and its operand bits (R105). -/
def encodeOp (cfg : Config) (o : Operation) (operands : List Bool) : Option Encoding :=
  (cfg.opcode o).map (fun op => .stream (fieldBits 3 op.toNat ++ operands))

/-- The encoding of an instruction under a configuration and, for bitstream commands, the current operand sizes; `none`
where it has none. -/
def encode (cfg : Config) (argSize penSize : Nat) : Instr → Option Encoding
  | .sel p b => some (.selectByte p b)
  | .app p d => some (.applyByte p d)
  | .wrDestLayer v => encodeReg cfg .a .destLayer v
  | .wrFlip v => encodeReg cfg .a .flip v
  | .wrBlitX v => encodeReg cfg .a .blitX v
  | .wrBlitY v => encodeReg cfg .a .blitY v
  | .wrRectWidth v => encodeReg cfg .a .rectWidth v
  | .wrRectHeight v => encodeReg cfg .a .rectHeight v
  | .wrLineLength v => encodeReg cfg .a .lineLength v
  | .wrPen v => encodeReg cfg .a .pen v
  | .wrPenMode v => encodeReg cfg .a .penMode v
  | .wrPenMask v => encodeReg cfg .a .penMask v
  | .wrClipX v => encodeReg cfg .a .clipX v
  | .wrClipY v => encodeReg cfg .a .clipY v
  | .wrClipWidth v => encodeReg cfg .a .clipWidth v
  | .wrClipHeight v => encodeReg cfg .a .clipHeight v
  | .wrClipCtrl v => encodeReg cfg .a .clipCtrl v
  | .wrAddrLo v => encodeReg cfg .a .addrLo v
  | .wrAddrMid v => encodeReg cfg .a .addrMid v
  | .wrAddrHi v => encodeReg cfg .a .addrHi v
  | .wrPriority v => encodeReg cfg .a .priority v
  | .wrLayerEnable v => encodeReg cfg .a .layerEnable v
  | .wrBgColor v => encodeReg cfg .a .bgColor v
  | .wrScrollX0 v => encodeReg cfg .a (.scrollX 0) v
  | .wrScrollX1 v => encodeReg cfg .a (.scrollX 1) v
  | .wrScrollX2 v => encodeReg cfg .a (.scrollX 2) v
  | .wrScrollX3 v => encodeReg cfg .a (.scrollX 3) v
  | .wrScrollY0 v => encodeReg cfg .a (.scrollY 0) v
  | .wrScrollY1 v => encodeReg cfg .a (.scrollY 1) v
  | .wrScrollY2 v => encodeReg cfg .a (.scrollY 2) v
  | .wrScrollY3 v => encodeReg cfg .a (.scrollY 3) v
  | .wrPaletteBase0 v => encodeReg cfg .a (.paletteBase 0) v
  | .wrPaletteBase1 v => encodeReg cfg .a (.paletteBase 1) v
  | .wrPaletteBase2 v => encodeReg cfg .a (.paletteBase 2) v
  | .wrPaletteBase3 v => encodeReg cfg .a (.paletteBase 3) v
  | .wrPaletteMask0 v => encodeReg cfg .a (.paletteMask 0) v
  | .wrPaletteMask1 v => encodeReg cfg .a (.paletteMask 1) v
  | .wrPaletteMask2 v => encodeReg cfg .a (.paletteMask 2) v
  | .wrPaletteMask3 v => encodeReg cfg .a (.paletteMask 3) v
  | .wrTransPen0 v => encodeReg cfg .a (.transPen 0) v
  | .wrTransPen1 v => encodeReg cfg .a (.transPen 1) v
  | .wrTransPen2 v => encodeReg cfg .a (.transPen 2) v
  | .wrTransPen3 v => encodeReg cfg .a (.transPen 3) v
  | .wrTransMask0 v => encodeReg cfg .a (.transMask 0) v
  | .wrTransMask1 v => encodeReg cfg .a (.transMask 1) v
  | .wrTransMask2 v => encodeReg cfg .a (.transMask 2) v
  | .wrTransMask3 v => encodeReg cfg .a (.transMask 3) v
  | .wrbPriority2 v => encodeReg cfg .b .priority2 v
  | .wrbLayerEnable2 v => encodeReg cfg .b .layerEnable2 v
  | .wrbBgColor2 v => encodeReg cfg .b .bgColor2 v
  | .wrbScrollX4 v => encodeReg cfg .b (.scrollX 4) v
  | .wrbScrollX5 v => encodeReg cfg .b (.scrollX 5) v
  | .wrbScrollX6 v => encodeReg cfg .b (.scrollX 6) v
  | .wrbScrollX7 v => encodeReg cfg .b (.scrollX 7) v
  | .wrbScrollY4 v => encodeReg cfg .b (.scrollY 4) v
  | .wrbScrollY5 v => encodeReg cfg .b (.scrollY 5) v
  | .wrbScrollY6 v => encodeReg cfg .b (.scrollY 6) v
  | .wrbScrollY7 v => encodeReg cfg .b (.scrollY 7) v
  | .wrbPaletteBase4 v => encodeReg cfg .b (.paletteBase 4) v
  | .wrbPaletteBase5 v => encodeReg cfg .b (.paletteBase 5) v
  | .wrbPaletteBase6 v => encodeReg cfg .b (.paletteBase 6) v
  | .wrbPaletteBase7 v => encodeReg cfg .b (.paletteBase 7) v
  | .wrbPaletteMask4 v => encodeReg cfg .b (.paletteMask 4) v
  | .wrbPaletteMask5 v => encodeReg cfg .b (.paletteMask 5) v
  | .wrbPaletteMask6 v => encodeReg cfg .b (.paletteMask 6) v
  | .wrbPaletteMask7 v => encodeReg cfg .b (.paletteMask 7) v
  | .wrbTransPen4 v => encodeReg cfg .b (.transPen 4) v
  | .wrbTransPen5 v => encodeReg cfg .b (.transPen 5) v
  | .wrbTransPen6 v => encodeReg cfg .b (.transPen 6) v
  | .wrbTransPen7 v => encodeReg cfg .b (.transPen 7) v
  | .wrbTransMask4 v => encodeReg cfg .b (.transMask 4) v
  | .wrbTransMask5 v => encodeReg cfg .b (.transMask 5) v
  | .wrbTransMask6 v => encodeReg cfg .b (.transMask 6) v
  | .wrbTransMask7 v => encodeReg cfg .b (.transMask 7) v
  | .wrUndefinedIndex p index v =>
    if cfg.undefinedIndex p index then some (.word p (valueWord index v)) else none
  | .goFillAll c => encodeStart cfg c (cfg.startCode .fillAll)
  | .goFillFromXY c => encodeStart cfg c (cfg.startCode .fillFromXY)
  | .goFillRect c => encodeStart cfg c (cfg.startCode .fillRect)
  | .goFillBand c => encodeStart cfg c (cfg.startCode .fillBand)
  | .goHline c => encodeStart cfg c (cfg.startCode .hline)
  | .goVline c => encodeStart cfg c (cfg.startCode .vline)
  | .goRomDraw c => encodeStart cfg c (cfg.startCode .romDraw)
  | .goUnknown c code => if (cfg.startOp code).isNone then encodeStart cfg c (some code) else none
  | .hdr hp ha => some (.stream (fieldBits 4 hp.toNat ++ fieldBits 4 ha.toNat))
  | .next => encodeOp cfg .nextLine []
  | .draw n p => encodeOp cfg .drawRun (fieldBits argSize n ++ fieldBits penSize p.toNat)
  | .copy p0 ps =>
    encodeOp cfg .copyRun (fieldBits argSize ps.length ++ (p0 :: ps).flatMap (fun p => fieldBits penSize p.toNat))
  | .skip n => encodeOp cfg .skip (fieldBits argSize n)
  | .argsz f => encodeOp cfg .changeArgSize (fieldBits 4 f.toNat)
  | .pensz f => encodeOp cfg .changePenSize (fieldBits 3 f.toNat)
  | .unk op => if cfg.operation op = .unknown then some (.stream (fieldBits 3 op.toNat)) else none
  | .stop => encodeOp cfg .stop []

/-- The bits of the stream at a cursor are `bits` (past the end of the ROM a bit reads as the sentinel, R75). -/
def streamAt (rom : List Byte) (cur : Nat) : List Bool → Bool
  | [] => true
  | b :: bs => (romBit rom cur == b) && streamAt rom (cur + 1) bs

/-! ## The opcode table's words -/

/-- A ROM whose first three bits are an opcode and whose other bits are 0. -/
def tableRom (w : Nat) : List Byte := [BitVec.ofNat 8 (32 * w), 0x00]

/-- The instruction of a word of the opcode table (DESIGN CHOICE, log 8). A word of 16 bits is a canonical pair on port
pair A, select byte in bits 15:8. A word of one byte below 8 is a bitstream opcode in bits 2:0, with operand bits 0 and
operand sizes 1; any other byte is a select byte on pair A. -/
def decodeTableWord (nbits w : Nat) : Option Instr :=
  if nbits ≤ 8 then
    if w < 8 then
      some (decodeCommand { Config.default with rom := tableRom w } 1 1 (BitCursor.port ⟨0, false⟩)).1
    else if w < 256 then some (.sel .a (BitVec.ofNat 8 w))
    else none
  else if nbits ≤ 16 then
    if w < 65536 then some (decodeWord Config.default .a (BitVec.ofNat 16 w)) else none
  else none

end Sys2Proof
end

