-- ==== Sys2Proof/Machine/Rasterizer.lean ====
section
/-! DEFINITION. The direct primitives (42_rasterizer.md section 2), START's dispatch of them (R160), unknown start codes
(R161), and the meanings of the `GO_` rows but ROM_DRAW (Sys2Proof/Machine/Bitstream.lean). Direct primitives store the
whole register pen, whatever `pen_mode` is (R259). -/

namespace Sys2Proof.Machine

/-- `FillFromOrigin(x, y)` (R254): every linear address from the wrapped origin to the buffer end, in every selected
layer; no swap, no clip, no wrap past the end. -/
def fillFromOrigin (x y : Int) (s : State) : State :=
  let a0 := linear (wrap512 x) (wrap512 y)
  s.withMem (fillSelected s.regs.destLayerMask a0 (layerSize - a0) s.regs.pen s.mem)

/-- The rows of a rectangle (R252): `rows` rows of `cols` pixels, the next row one further down. -/
def plotRows (x y : Int) (c : Byte) (cols : Nat) : Nat → State → State
  | 0, s => s
  | rows + 1, s => plotRows x (y + 1) c cols rows (plotRun y .inc (List.replicate cols c) x s)

/-- `FillRect()` (R252): `rect_width + 1` by `rect_height + 1` pixels through `Plot`. -/
def fillRect (s : State) : State :=
  plotRows s.regs.blitX s.regs.blitY s.regs.pen (s.regs.rectWidth + 1) (s.regs.rectHeight + 1) s

/-- The rows of a band (R253): `rows` whole scanlines from row `y`, rows wrapping, in every selected layer. -/
def fillBandRows (mask : BitVec 16) (c : Byte) : Int → Nat → Memory → Memory
  | _, 0, m => m
  | y, rows + 1, m => fillBandRows mask c (y + 1) rows (fillSelected mask (linear 0 (wrap512 y)) 512 c m)

/-- `FillBand()` (R253). -/
def fillBand (s : State) : State :=
  s.withMem (fillBandRows s.regs.destLayerMask s.regs.pen s.regs.blitY (s.regs.rectHeight + 1) s.mem)

/-- One round of `HLine()`: plot at the current position, then advance `blit_x` (R256). -/
def hlinePixel (s : State) : State :=
  let t := plot s.regs.blitX s.regs.blitY s.regs.pen s
  t.withRegs { t.regs with blitX := t.regs.blitX + 1 }

/-- One round of `VLine()` (R257). -/
def vlinePixel (s : State) : State :=
  let t := plot s.regs.blitX s.regs.blitY s.regs.pen s
  t.withRegs { t.regs with blitY := t.regs.blitY + 1 }

/-- `repeat n:` (R18). -/
def repeatTimes (f : State → State) : Nat → State → State
  | 0, s => s
  | n + 1, s => repeatTimes f n (f s)

/-- `HLine()` (R256): `line_length + 1` pixels; the register is left past the last one, unreduced. -/
def hline (s : State) : State := repeatTimes hlinePixel (s.regs.lineLength + 1) s

/-- `VLine()` (R257). -/
def vline (s : State) : State := repeatTimes vlinePixel (s.regs.lineLength + 1) s

/-! ## Start operations with their completion (R160) -/

/-- FILL_ALL (R250). -/
def startFillAll (s : State) : State := (fillFromOrigin 0 0 s).schedule .direct

/-- FILL_FROM_XY (R251). -/
def startFillFromXY (s : State) : State := (fillFromOrigin s.regs.blitX s.regs.blitY s).schedule .direct

/-- FILL_RECT (R252). -/
def startFillRect (s : State) : State := (fillRect s).schedule .direct

/-- FILL_BAND (R253). -/
def startFillBand (s : State) : State := (fillBand s).schedule .direct

/-- HLINE (R256). -/
def startHline (s : State) : State := (hline s).schedule .direct

/-- VLINE (R257). -/
def startVline (s : State) : State := (vline s).schedule .direct

/-- UNKNOWN_START (R161): only the diagnostic; no token. -/
def startUnknown (code : Byte) (s : State) : State := s.raise (.unknownStart code)

/-! ## Meanings -/

/-- `GO_FILL_ALL`. -/
def execGoFillAll (_c : BitVec 2) (s : State) : Result := .next (startFillAll s)

/-- `GO_FILL_FROM_XY`. -/
def execGoFillFromXY (_c : BitVec 2) (s : State) : Result := .next (startFillFromXY s)

/-- `GO_FILL_RECT`. -/
def execGoFillRect (_c : BitVec 2) (s : State) : Result := .next (startFillRect s)

/-- `GO_FILL_BAND`. -/
def execGoFillBand (_c : BitVec 2) (s : State) : Result := .next (startFillBand s)

/-- `GO_HLINE`. -/
def execGoHline (_c : BitVec 2) (s : State) : Result := .next (startHline s)

/-- `GO_VLINE`. -/
def execGoVline (_c : BitVec 2) (s : State) : Result := .next (startVline s)

/-- `GO__unknown_start_code`. -/
def execGoUnknown (_c : BitVec 2) (code : Byte) (s : State) : Result := .next (startUnknown code s)

end Sys2Proof.Machine
end

