-- ==== Sys2Proof/Machine/RegisterWrites.lean ====
section
/-! DEFINITION. The register writes (40_register_protocol.md sections 2 and 3): for each register what a write of the
combined value `v` stores, and the meanings of the `WR_` and `WRB_` rows. The select byte of such a pair is latched when
the pair is fetched (log 6); a meaning is what the apply byte does. -/

namespace Sys2Proof.Machine

/-! ## What each register takes of `v` -/

/-- DEST_LAYER (R140). -/
def writeDestLayer (v : BitVec 10) (s : State) : State :=
  let r := s.regs
  s.withRegs { r with destLayerMask := wideValue v }

/-- FLIP (R141): the three flags are stored even when the reserved bits raise the diagnostic. -/
def writeFlip (v : BitVec 10) (s : State) : State :=
  (s.withRegs { s.regs with flip := flipOf v }).raiseIf (flipReservedBits v != 0) (.flipReserved (flipReservedBits v))

/-- BLIT_X (R142). -/
def writeBlitX (v : BitVec 10) (s : State) : State :=
  let r := s.regs
  s.withRegs { r with blitX := v.toNat }

/-- BLIT_Y (R143). -/
def writeBlitY (v : BitVec 10) (s : State) : State :=
  let r := s.regs
  s.withRegs { r with blitY := v.toNat }

/-- RECT_WIDTH (R144). -/
def writeRectWidth (v : BitVec 10) (s : State) : State :=
  let r := s.regs
  s.withRegs { r with rectWidth := v.toNat }

/-- RECT_HEIGHT (R145). -/
def writeRectHeight (v : BitVec 10) (s : State) : State :=
  let r := s.regs
  s.withRegs { r with rectHeight := v.toNat }

/-- LINE_LENGTH (R146). -/
def writeLineLength (v : BitVec 10) (s : State) : State :=
  let r := s.regs
  s.withRegs { r with lineLength := v.toNat }

/-- PEN (R147). -/
def writePen (v : BitVec 10) (s : State) : State :=
  let r := s.regs
  s.withRegs { r with pen := lowByte v }

/-- PEN_MODE (R148). -/
def writePenMode (v : BitVec 10) (s : State) : State :=
  let r := s.regs
  s.withRegs { r with penMode := v.getLsbD 0 }

/-- PEN_MASK (R149). -/
def writePenMask (v : BitVec 10) (s : State) : State :=
  let r := s.regs
  s.withRegs { r with penMask := lowByte v }

/-- CLIP_X (R150). -/
def writeClipX (v : BitVec 10) (s : State) : State :=
  let r := s.regs
  s.withRegs { r with clip := { r.clip with x := v.toNat } }

/-- CLIP_Y (R151). -/
def writeClipY (v : BitVec 10) (s : State) : State :=
  let r := s.regs
  s.withRegs { r with clip := { r.clip with y := v.toNat } }

/-- CLIP_WIDTH (R152). -/
def writeClipWidth (v : BitVec 10) (s : State) : State :=
  let r := s.regs
  s.withRegs { r with clip := { r.clip with width := v.toNat } }

/-- CLIP_HEIGHT (R153). -/
def writeClipHeight (v : BitVec 10) (s : State) : State :=
  let r := s.regs
  s.withRegs { r with clip := { r.clip with height := v.toNat } }

/-- CLIP_CTRL (R154). -/
def writeClipCtrl (v : BitVec 10) (s : State) : State :=
  let r := s.regs
  s.withRegs { r with clip := { r.clip with ctrl := lowByte v } }

/-- ADDR_LO (R155). -/
def writeAddrLo (v : BitVec 10) (s : State) : State :=
  let r := s.regs
  s.withRegs { r with blitAddress := addrWithLo r.blitAddress (lowByte v) }

/-- ADDR_MID (R156). -/
def writeAddrMid (v : BitVec 10) (s : State) : State :=
  let r := s.regs
  s.withRegs { r with blitAddress := addrWithMid r.blitAddress (lowByte v) }

/-- ADDR_HI (R157). -/
def writeAddrHi (v : BitVec 10) (s : State) : State :=
  let r := s.regs
  s.withRegs { r with blitAddress := addrWithHi r.blitAddress (lowByte v) }

/-- PRIORITY (R158). -/
def writePriority (v : BitVec 10) (s : State) : State :=
  let r := s.regs
  s.withRegs { r with priorityIndex := lowFive v }

/-- LAYER_ENABLE (R159). -/
def writeLayerEnable (v : BitVec 10) (s : State) : State :=
  let r := s.regs
  s.withRegs { r with layerEnableMask := lowByte v }

/-- BG_COLOR (R163). -/
def writeBgColor (v : BitVec 10) (s : State) : State :=
  let r := s.regs
  s.withRegs { r with bgColor := lowByte v }

/-- PRIORITY2 (R170). -/
def writePriority2 (v : BitVec 10) (s : State) : State :=
  s.withRegs { s.regs with priorityIndex2 := lowFive v }

/-- LAYER_ENABLE2 (R171). -/
def writeLayerEnable2 (v : BitVec 10) (s : State) : State :=
  s.withRegs { s.regs with layerEnableMask2 := lowByte v }

/-- BG_COLOR2 (R172). -/
def writeBgColor2 (v : BitVec 10) (s : State) : State :=
  s.withRegs { s.regs with bgColor2 := lowByte v }

/-- SCROLL_X[l] (R164). -/
def writeScrollX (l : Layer) (v : BitVec 10) (s : State) : State :=
  s.withRegs { s.regs with scrollX := s.regs.scrollX.set l v.toNat }

/-- SCROLL_Y[l] (R165). -/
def writeScrollY (l : Layer) (v : BitVec 10) (s : State) : State :=
  s.withRegs { s.regs with scrollY := s.regs.scrollY.set l v.toNat }

/-- PALETTE_BASE[l] (R166). -/
def writePaletteBase (l : Layer) (v : BitVec 10) (s : State) : State :=
  s.withRegs { s.regs with paletteBase := s.regs.paletteBase.set l (wideValue v) }

/-- PALETTE_MASK[l] (R167). -/
def writePaletteMask (l : Layer) (v : BitVec 10) (s : State) : State :=
  s.withRegs { s.regs with paletteMask := s.regs.paletteMask.set l (lowByte v) }

/-- TRANS_PEN[l] (R168). -/
def writeTransPen (l : Layer) (v : BitVec 10) (s : State) : State :=
  s.withRegs { s.regs with transparencyPen := s.regs.transparencyPen.set l (lowByte v) }

/-- TRANS_MASK[l] (R169). -/
def writeTransMask (l : Layer) (v : BitVec 10) (s : State) : State :=
  s.withRegs { s.regs with transparencyMask := s.regs.transparencyMask.set l (lowByte v) }

/-! ## The rows of pair B -/

/-- The index that LAYOUT_B gives a register, pair B present or not, and else the default LAYOUT_B (R107; log 11). -/
def layoutIndexB (cfg : Config) (r : Reg) : BitVec 6 :=
  match lowestKey 6 (fun i => lookupFirst i cfg.layoutB) r with
  | some i => i
  | none => (lowestKey 6 (fun i => lookupFirst i Config.layoutB0) r).getD 0

/-- A `WRB` row, whose register's write is `write`: pair B exists only with EIGHT_LAYER; without it, unless LAYOUT_A reaches
the register, the apply byte meets an undefined index (R134, R162; log 11). -/
def pairBWrite (r : Reg) (write : BitVec 10 → State → State) (v : BitVec 10) (s : State) : State :=
  if s.config.eightLayer || (s.config.index .a r).isSome then write v s
  else s.undefinedRegister .b (layoutIndexB s.config r) v

/-! ## Meanings of the `WR_` rows -/

/-- `WR_DEST_LAYER` (R140). -/
def execWrDestLayer (v : BitVec 10) (s : State) : Result := .next (writeDestLayer v s)

/-- `WR_FLIP` (R141). -/
def execWrFlip (v : BitVec 10) (s : State) : Result := .next (writeFlip v s)

/-- `WR_BLIT_X` (R142). -/
def execWrBlitX (v : BitVec 10) (s : State) : Result := .next (writeBlitX v s)

/-- `WR_BLIT_Y` (R143). -/
def execWrBlitY (v : BitVec 10) (s : State) : Result := .next (writeBlitY v s)

/-- `WR_RECT_WIDTH` (R144). -/
def execWrRectWidth (v : BitVec 10) (s : State) : Result := .next (writeRectWidth v s)

/-- `WR_RECT_HEIGHT` (R145). -/
def execWrRectHeight (v : BitVec 10) (s : State) : Result := .next (writeRectHeight v s)

/-- `WR_LINE_LENGTH` (R146). -/
def execWrLineLength (v : BitVec 10) (s : State) : Result := .next (writeLineLength v s)

/-- `WR_PEN` (R147). -/
def execWrPen (v : BitVec 10) (s : State) : Result := .next (writePen v s)

/-- `WR_PEN_MODE` (R148). -/
def execWrPenMode (v : BitVec 10) (s : State) : Result := .next (writePenMode v s)

/-- `WR_PEN_MASK` (R149). -/
def execWrPenMask (v : BitVec 10) (s : State) : Result := .next (writePenMask v s)

/-- `WR_CLIP_X` (R150). -/
def execWrClipX (v : BitVec 10) (s : State) : Result := .next (writeClipX v s)

/-- `WR_CLIP_Y` (R151). -/
def execWrClipY (v : BitVec 10) (s : State) : Result := .next (writeClipY v s)

/-- `WR_CLIP_WIDTH` (R152). -/
def execWrClipWidth (v : BitVec 10) (s : State) : Result := .next (writeClipWidth v s)

/-- `WR_CLIP_HEIGHT` (R153). -/
def execWrClipHeight (v : BitVec 10) (s : State) : Result := .next (writeClipHeight v s)

/-- `WR_CLIP_CTRL` (R154). -/
def execWrClipCtrl (v : BitVec 10) (s : State) : Result := .next (writeClipCtrl v s)

/-- `WR_ADDR_LO` (R155). -/
def execWrAddrLo (v : BitVec 10) (s : State) : Result := .next (writeAddrLo v s)

/-- `WR_ADDR_MID` (R156). -/
def execWrAddrMid (v : BitVec 10) (s : State) : Result := .next (writeAddrMid v s)

/-- `WR_ADDR_HI` (R157). -/
def execWrAddrHi (v : BitVec 10) (s : State) : Result := .next (writeAddrHi v s)

/-- `WR_PRIORITY` (R158). -/
def execWrPriority (v : BitVec 10) (s : State) : Result := .next (writePriority v s)

/-- `WR_LAYER_ENABLE` (R159). -/
def execWrLayerEnable (v : BitVec 10) (s : State) : Result := .next (writeLayerEnable v s)

/-- `WR_BG_COLOR` (R163). -/
def execWrBgColor (v : BitVec 10) (s : State) : Result := .next (writeBgColor v s)

/-- `WR_SCROLL_X_0` (R164). -/
def execWrScrollX0 (v : BitVec 10) (s : State) : Result := .next (writeScrollX (layerA 0) v s)

/-- `WR_SCROLL_X_1` (R164). -/
def execWrScrollX1 (v : BitVec 10) (s : State) : Result := .next (writeScrollX (layerA 1) v s)

/-- `WR_SCROLL_X_2` (R164). -/
def execWrScrollX2 (v : BitVec 10) (s : State) : Result := .next (writeScrollX (layerA 2) v s)

/-- `WR_SCROLL_X_3` (R164). -/
def execWrScrollX3 (v : BitVec 10) (s : State) : Result := .next (writeScrollX (layerA 3) v s)

/-- `WR_SCROLL_Y_0` (R165). -/
def execWrScrollY0 (v : BitVec 10) (s : State) : Result := .next (writeScrollY (layerA 0) v s)

/-- `WR_SCROLL_Y_1` (R165). -/
def execWrScrollY1 (v : BitVec 10) (s : State) : Result := .next (writeScrollY (layerA 1) v s)

/-- `WR_SCROLL_Y_2` (R165). -/
def execWrScrollY2 (v : BitVec 10) (s : State) : Result := .next (writeScrollY (layerA 2) v s)

/-- `WR_SCROLL_Y_3` (R165). -/
def execWrScrollY3 (v : BitVec 10) (s : State) : Result := .next (writeScrollY (layerA 3) v s)

/-- `WR_PALETTE_BASE_0` (R166). -/
def execWrPaletteBase0 (v : BitVec 10) (s : State) : Result := .next (writePaletteBase (layerA 0) v s)

/-- `WR_PALETTE_BASE_1` (R166). -/
def execWrPaletteBase1 (v : BitVec 10) (s : State) : Result := .next (writePaletteBase (layerA 1) v s)

/-- `WR_PALETTE_BASE_2` (R166). -/
def execWrPaletteBase2 (v : BitVec 10) (s : State) : Result := .next (writePaletteBase (layerA 2) v s)

/-- `WR_PALETTE_BASE_3` (R166). -/
def execWrPaletteBase3 (v : BitVec 10) (s : State) : Result := .next (writePaletteBase (layerA 3) v s)

/-- `WR_PALETTE_MASK_0` (R167). -/
def execWrPaletteMask0 (v : BitVec 10) (s : State) : Result := .next (writePaletteMask (layerA 0) v s)

/-- `WR_PALETTE_MASK_1` (R167). -/
def execWrPaletteMask1 (v : BitVec 10) (s : State) : Result := .next (writePaletteMask (layerA 1) v s)

/-- `WR_PALETTE_MASK_2` (R167). -/
def execWrPaletteMask2 (v : BitVec 10) (s : State) : Result := .next (writePaletteMask (layerA 2) v s)

/-- `WR_PALETTE_MASK_3` (R167). -/
def execWrPaletteMask3 (v : BitVec 10) (s : State) : Result := .next (writePaletteMask (layerA 3) v s)

/-- `WR_TRANS_PEN_0` (R168). -/
def execWrTransPen0 (v : BitVec 10) (s : State) : Result := .next (writeTransPen (layerA 0) v s)

/-- `WR_TRANS_PEN_1` (R168). -/
def execWrTransPen1 (v : BitVec 10) (s : State) : Result := .next (writeTransPen (layerA 1) v s)

/-- `WR_TRANS_PEN_2` (R168). -/
def execWrTransPen2 (v : BitVec 10) (s : State) : Result := .next (writeTransPen (layerA 2) v s)

/-- `WR_TRANS_PEN_3` (R168). -/
def execWrTransPen3 (v : BitVec 10) (s : State) : Result := .next (writeTransPen (layerA 3) v s)

/-- `WR_TRANS_MASK_0` (R169). -/
def execWrTransMask0 (v : BitVec 10) (s : State) : Result := .next (writeTransMask (layerA 0) v s)

/-- `WR_TRANS_MASK_1` (R169). -/
def execWrTransMask1 (v : BitVec 10) (s : State) : Result := .next (writeTransMask (layerA 1) v s)

/-- `WR_TRANS_MASK_2` (R169). -/
def execWrTransMask2 (v : BitVec 10) (s : State) : Result := .next (writeTransMask (layerA 2) v s)

/-- `WR_TRANS_MASK_3` (R169). -/
def execWrTransMask3 (v : BitVec 10) (s : State) : Result := .next (writeTransMask (layerA 3) v s)

/-! ## Meanings of the `WRB_` rows -/

/-- `WRB_PRIORITY2` (R170). -/
def execWrbPriority2 (v : BitVec 10) (s : State) : Result := .next (pairBWrite .priority2 writePriority2 v s)

/-- `WRB_LAYER_ENABLE2` (R171). -/
def execWrbLayerEnable2 (v : BitVec 10) (s : State) : Result := .next (pairBWrite .layerEnable2 writeLayerEnable2 v s)

/-- `WRB_BG_COLOR2` (R172). -/
def execWrbBgColor2 (v : BitVec 10) (s : State) : Result := .next (pairBWrite .bgColor2 writeBgColor2 v s)

/-- `WRB_SCROLL_X_4` (R164). -/
def execWrbScrollX4 (v : BitVec 10) (s : State) : Result := .next (pairBWrite (.scrollX 4) (writeScrollX 4) v s)

/-- `WRB_SCROLL_X_5` (R164). -/
def execWrbScrollX5 (v : BitVec 10) (s : State) : Result := .next (pairBWrite (.scrollX 5) (writeScrollX 5) v s)

/-- `WRB_SCROLL_X_6` (R164). -/
def execWrbScrollX6 (v : BitVec 10) (s : State) : Result := .next (pairBWrite (.scrollX 6) (writeScrollX 6) v s)

/-- `WRB_SCROLL_X_7` (R164). -/
def execWrbScrollX7 (v : BitVec 10) (s : State) : Result := .next (pairBWrite (.scrollX 7) (writeScrollX 7) v s)

/-- `WRB_SCROLL_Y_4` (R165). -/
def execWrbScrollY4 (v : BitVec 10) (s : State) : Result := .next (pairBWrite (.scrollY 4) (writeScrollY 4) v s)

/-- `WRB_SCROLL_Y_5` (R165). -/
def execWrbScrollY5 (v : BitVec 10) (s : State) : Result := .next (pairBWrite (.scrollY 5) (writeScrollY 5) v s)

/-- `WRB_SCROLL_Y_6` (R165). -/
def execWrbScrollY6 (v : BitVec 10) (s : State) : Result := .next (pairBWrite (.scrollY 6) (writeScrollY 6) v s)

/-- `WRB_SCROLL_Y_7` (R165). -/
def execWrbScrollY7 (v : BitVec 10) (s : State) : Result := .next (pairBWrite (.scrollY 7) (writeScrollY 7) v s)

/-- `WRB_PALETTE_BASE_4` (R166). -/
def execWrbPaletteBase4 (v : BitVec 10) (s : State) : Result := .next (pairBWrite (.paletteBase 4) (writePaletteBase 4) v s)

/-- `WRB_PALETTE_BASE_5` (R166). -/
def execWrbPaletteBase5 (v : BitVec 10) (s : State) : Result := .next (pairBWrite (.paletteBase 5) (writePaletteBase 5) v s)

/-- `WRB_PALETTE_BASE_6` (R166). -/
def execWrbPaletteBase6 (v : BitVec 10) (s : State) : Result := .next (pairBWrite (.paletteBase 6) (writePaletteBase 6) v s)

/-- `WRB_PALETTE_BASE_7` (R166). -/
def execWrbPaletteBase7 (v : BitVec 10) (s : State) : Result := .next (pairBWrite (.paletteBase 7) (writePaletteBase 7) v s)

/-- `WRB_PALETTE_MASK_4` (R167). -/
def execWrbPaletteMask4 (v : BitVec 10) (s : State) : Result := .next (pairBWrite (.paletteMask 4) (writePaletteMask 4) v s)

/-- `WRB_PALETTE_MASK_5` (R167). -/
def execWrbPaletteMask5 (v : BitVec 10) (s : State) : Result := .next (pairBWrite (.paletteMask 5) (writePaletteMask 5) v s)

/-- `WRB_PALETTE_MASK_6` (R167). -/
def execWrbPaletteMask6 (v : BitVec 10) (s : State) : Result := .next (pairBWrite (.paletteMask 6) (writePaletteMask 6) v s)

/-- `WRB_PALETTE_MASK_7` (R167). -/
def execWrbPaletteMask7 (v : BitVec 10) (s : State) : Result := .next (pairBWrite (.paletteMask 7) (writePaletteMask 7) v s)

/-- `WRB_TRANS_PEN_4` (R168). -/
def execWrbTransPen4 (v : BitVec 10) (s : State) : Result := .next (pairBWrite (.transPen 4) (writeTransPen 4) v s)

/-- `WRB_TRANS_PEN_5` (R168). -/
def execWrbTransPen5 (v : BitVec 10) (s : State) : Result := .next (pairBWrite (.transPen 5) (writeTransPen 5) v s)

/-- `WRB_TRANS_PEN_6` (R168). -/
def execWrbTransPen6 (v : BitVec 10) (s : State) : Result := .next (pairBWrite (.transPen 6) (writeTransPen 6) v s)

/-- `WRB_TRANS_PEN_7` (R168). -/
def execWrbTransPen7 (v : BitVec 10) (s : State) : Result := .next (pairBWrite (.transPen 7) (writeTransPen 7) v s)

/-- `WRB_TRANS_MASK_4` (R169). -/
def execWrbTransMask4 (v : BitVec 10) (s : State) : Result := .next (pairBWrite (.transMask 4) (writeTransMask 4) v s)

/-- `WRB_TRANS_MASK_5` (R169). -/
def execWrbTransMask5 (v : BitVec 10) (s : State) : Result := .next (pairBWrite (.transMask 5) (writeTransMask 5) v s)

/-- `WRB_TRANS_MASK_6` (R169). -/
def execWrbTransMask6 (v : BitVec 10) (s : State) : Result := .next (pairBWrite (.transMask 6) (writeTransMask 6) v s)

/-- `WRB_TRANS_MASK_7` (R169). -/
def execWrbTransMask7 (v : BitVec 10) (s : State) : Result := .next (pairBWrite (.transMask 7) (writeTransMask 7) v s)

/-- `WR__undefined_index` (R162). -/
def execWrUndefinedIndex (p : PortPair) (index : BitVec 6) (v : BitVec 10) (s : State) : Result :=
  .next (s.undefinedRegister p index v)

end Sys2Proof.Machine
end

