-- ==== Sys2Proof/Machine/Protocol.lean ====
section
/-! DEFINITION. The two-phase protocol (40_register_protocol.md section 1) and the dispatch of START (R160): the meanings
of `SEL` and `APP`. -/

namespace Sys2Proof.Machine

/-- START's dispatch on the start code (R160, R161). -/
def runStart (code : Byte) (s : State) : State :=
  match s.config.startOp code with
  | some .romDraw => startRomDraw s
  | some .fillAll => startFillAll s
  | some .fillFromXY => startFillFromXY s
  | some .fillRect => startFillRect s
  | some .fillBand => startFillBand s
  | some .hline => startHline s
  | some .vline => startVline s
  | none => startUnknown code s

/-- The rule of a register with the value `v` (R132: rules R140 to R172), whichever pair reaches it. -/
def writeReg (r : Reg) (v : BitVec 10) (s : State) : State :=
  match r with
  | .destLayer => writeDestLayer v s
  | .flip => writeFlip v s
  | .blitX => writeBlitX v s
  | .blitY => writeBlitY v s
  | .rectWidth => writeRectWidth v s
  | .rectHeight => writeRectHeight v s
  | .lineLength => writeLineLength v s
  | .pen => writePen v s
  | .penMode => writePenMode v s
  | .penMask => writePenMask v s
  | .clipX => writeClipX v s
  | .clipY => writeClipY v s
  | .clipWidth => writeClipWidth v s
  | .clipHeight => writeClipHeight v s
  | .clipCtrl => writeClipCtrl v s
  | .addrLo => writeAddrLo v s
  | .addrMid => writeAddrMid v s
  | .addrHi => writeAddrHi v s
  | .start => runStart (lowByte v) s
  | .priority => writePriority v s
  | .layerEnable => writeLayerEnable v s
  | .bgColor => writeBgColor v s
  | .priority2 => writePriority2 v s
  | .layerEnable2 => writeLayerEnable2 v s
  | .bgColor2 => writeBgColor2 v s
  | .scrollX l => writeScrollX l v s
  | .scrollY l => writeScrollY l v s
  | .paletteBase l => writePaletteBase l v s
  | .paletteMask l => writePaletteMask l v s
  | .transPen l => writeTransPen l v s
  | .transMask l => writeTransMask l v s

/-- What `apply` does with the latched index and the combined value (R132, R134, R162). -/
def applyRegister (p : PortPair) (index : BitVec 6) (v : BitVec 10) (s : State) : State :=
  match s.config.reg p index with
  | some r => writeReg r v s
  | none => s.undefinedRegister p index v

/-- `apply(d)` (R132): the latch gives index and carry and keeps its value (R133). -/
def applyByte (p : PortPair) (d : Byte) (s : State) : State :=
  let w := pairWord (s.latch p) d
  applyRegister p (wordIndex w) (combinedValue (wordCarry w) (wordData w)) s

/-- `SEL` (R131, R134). -/
def execSel (p : PortPair) (b : Byte) (s : State) : Result := .next (s.withLatch p b)

/-- `APP` (R132, R134). -/
def execApp (p : PortPair) (d : Byte) (s : State) : Result := .next (applyByte p d s)

end Sys2Proof.Machine
end

