-- ==== Sys2Proof/Machine/Dispatch.lean ====
section
/-! DEFINITION. One arm per constructor of Instr: the meaning of each instruction. -/

namespace Sys2Proof.Machine

def exec (i : Instr) (s : State) : Host.Outcome State Fault Refusal :=
  match i with
  | .sel p b => Sys2Proof.Machine.execSel p b s
  | .app p d => Sys2Proof.Machine.execApp p d s
  | .wrDestLayer v => Sys2Proof.Machine.execWrDestLayer v s
  | .wrFlip v => Sys2Proof.Machine.execWrFlip v s
  | .wrBlitX v => Sys2Proof.Machine.execWrBlitX v s
  | .wrBlitY v => Sys2Proof.Machine.execWrBlitY v s
  | .wrRectWidth v => Sys2Proof.Machine.execWrRectWidth v s
  | .wrRectHeight v => Sys2Proof.Machine.execWrRectHeight v s
  | .wrLineLength v => Sys2Proof.Machine.execWrLineLength v s
  | .wrPen v => Sys2Proof.Machine.execWrPen v s
  | .wrPenMode v => Sys2Proof.Machine.execWrPenMode v s
  | .wrPenMask v => Sys2Proof.Machine.execWrPenMask v s
  | .wrClipX v => Sys2Proof.Machine.execWrClipX v s
  | .wrClipY v => Sys2Proof.Machine.execWrClipY v s
  | .wrClipWidth v => Sys2Proof.Machine.execWrClipWidth v s
  | .wrClipHeight v => Sys2Proof.Machine.execWrClipHeight v s
  | .wrClipCtrl v => Sys2Proof.Machine.execWrClipCtrl v s
  | .wrAddrLo v => Sys2Proof.Machine.execWrAddrLo v s
  | .wrAddrMid v => Sys2Proof.Machine.execWrAddrMid v s
  | .wrAddrHi v => Sys2Proof.Machine.execWrAddrHi v s
  | .wrPriority v => Sys2Proof.Machine.execWrPriority v s
  | .wrLayerEnable v => Sys2Proof.Machine.execWrLayerEnable v s
  | .wrBgColor v => Sys2Proof.Machine.execWrBgColor v s
  | .wrScrollX0 v => Sys2Proof.Machine.execWrScrollX0 v s
  | .wrScrollX1 v => Sys2Proof.Machine.execWrScrollX1 v s
  | .wrScrollX2 v => Sys2Proof.Machine.execWrScrollX2 v s
  | .wrScrollX3 v => Sys2Proof.Machine.execWrScrollX3 v s
  | .wrScrollY0 v => Sys2Proof.Machine.execWrScrollY0 v s
  | .wrScrollY1 v => Sys2Proof.Machine.execWrScrollY1 v s
  | .wrScrollY2 v => Sys2Proof.Machine.execWrScrollY2 v s
  | .wrScrollY3 v => Sys2Proof.Machine.execWrScrollY3 v s
  | .wrPaletteBase0 v => Sys2Proof.Machine.execWrPaletteBase0 v s
  | .wrPaletteBase1 v => Sys2Proof.Machine.execWrPaletteBase1 v s
  | .wrPaletteBase2 v => Sys2Proof.Machine.execWrPaletteBase2 v s
  | .wrPaletteBase3 v => Sys2Proof.Machine.execWrPaletteBase3 v s
  | .wrPaletteMask0 v => Sys2Proof.Machine.execWrPaletteMask0 v s
  | .wrPaletteMask1 v => Sys2Proof.Machine.execWrPaletteMask1 v s
  | .wrPaletteMask2 v => Sys2Proof.Machine.execWrPaletteMask2 v s
  | .wrPaletteMask3 v => Sys2Proof.Machine.execWrPaletteMask3 v s
  | .wrTransPen0 v => Sys2Proof.Machine.execWrTransPen0 v s
  | .wrTransPen1 v => Sys2Proof.Machine.execWrTransPen1 v s
  | .wrTransPen2 v => Sys2Proof.Machine.execWrTransPen2 v s
  | .wrTransPen3 v => Sys2Proof.Machine.execWrTransPen3 v s
  | .wrTransMask0 v => Sys2Proof.Machine.execWrTransMask0 v s
  | .wrTransMask1 v => Sys2Proof.Machine.execWrTransMask1 v s
  | .wrTransMask2 v => Sys2Proof.Machine.execWrTransMask2 v s
  | .wrTransMask3 v => Sys2Proof.Machine.execWrTransMask3 v s
  | .wrbPriority2 v => Sys2Proof.Machine.execWrbPriority2 v s
  | .wrbLayerEnable2 v => Sys2Proof.Machine.execWrbLayerEnable2 v s
  | .wrbBgColor2 v => Sys2Proof.Machine.execWrbBgColor2 v s
  | .wrbScrollX4 v => Sys2Proof.Machine.execWrbScrollX4 v s
  | .wrbScrollX5 v => Sys2Proof.Machine.execWrbScrollX5 v s
  | .wrbScrollX6 v => Sys2Proof.Machine.execWrbScrollX6 v s
  | .wrbScrollX7 v => Sys2Proof.Machine.execWrbScrollX7 v s
  | .wrbScrollY4 v => Sys2Proof.Machine.execWrbScrollY4 v s
  | .wrbScrollY5 v => Sys2Proof.Machine.execWrbScrollY5 v s
  | .wrbScrollY6 v => Sys2Proof.Machine.execWrbScrollY6 v s
  | .wrbScrollY7 v => Sys2Proof.Machine.execWrbScrollY7 v s
  | .wrbPaletteBase4 v => Sys2Proof.Machine.execWrbPaletteBase4 v s
  | .wrbPaletteBase5 v => Sys2Proof.Machine.execWrbPaletteBase5 v s
  | .wrbPaletteBase6 v => Sys2Proof.Machine.execWrbPaletteBase6 v s
  | .wrbPaletteBase7 v => Sys2Proof.Machine.execWrbPaletteBase7 v s
  | .wrbPaletteMask4 v => Sys2Proof.Machine.execWrbPaletteMask4 v s
  | .wrbPaletteMask5 v => Sys2Proof.Machine.execWrbPaletteMask5 v s
  | .wrbPaletteMask6 v => Sys2Proof.Machine.execWrbPaletteMask6 v s
  | .wrbPaletteMask7 v => Sys2Proof.Machine.execWrbPaletteMask7 v s
  | .wrbTransPen4 v => Sys2Proof.Machine.execWrbTransPen4 v s
  | .wrbTransPen5 v => Sys2Proof.Machine.execWrbTransPen5 v s
  | .wrbTransPen6 v => Sys2Proof.Machine.execWrbTransPen6 v s
  | .wrbTransPen7 v => Sys2Proof.Machine.execWrbTransPen7 v s
  | .wrbTransMask4 v => Sys2Proof.Machine.execWrbTransMask4 v s
  | .wrbTransMask5 v => Sys2Proof.Machine.execWrbTransMask5 v s
  | .wrbTransMask6 v => Sys2Proof.Machine.execWrbTransMask6 v s
  | .wrbTransMask7 v => Sys2Proof.Machine.execWrbTransMask7 v s
  | .wrUndefinedIndex p index v => Sys2Proof.Machine.execWrUndefinedIndex p index v s
  | .goFillAll c => Sys2Proof.Machine.execGoFillAll c s
  | .goFillFromXY c => Sys2Proof.Machine.execGoFillFromXY c s
  | .goFillRect c => Sys2Proof.Machine.execGoFillRect c s
  | .goFillBand c => Sys2Proof.Machine.execGoFillBand c s
  | .goHline c => Sys2Proof.Machine.execGoHline c s
  | .goVline c => Sys2Proof.Machine.execGoVline c s
  | .goRomDraw c => Sys2Proof.Machine.execGoRomDraw c s
  | .goUnknown c code => Sys2Proof.Machine.execGoUnknown c code s
  | .hdr hp ha => Sys2Proof.Machine.execHdr hp ha s
  | .next => Sys2Proof.Machine.execNext s
  | .draw n p => Sys2Proof.Machine.execDraw n p s
  | .copy p0 ps => Sys2Proof.Machine.execCopy p0 ps s
  | .skip n => Sys2Proof.Machine.execSkip n s
  | .argsz f => Sys2Proof.Machine.execArgsz f s
  | .pensz f => Sys2Proof.Machine.execPensz f s
  | .unk op => Sys2Proof.Machine.execUnk op s
  | .stop => Sys2Proof.Machine.execStop s

end Sys2Proof.Machine
end

