-- ==== Sys2Proof/Machine/Compositor.lean ====
section
/-! DEFINITION. The layer compositor (43_compositor.md): background, effective priority, paint order, scroll,
transparency, palette. A frame pixel depends on one source pixel of each layer only (R284), so the frame is built pixel
by pixel, each pixel running through the layers in paint order. -/

namespace Sys2Proof.Machine

/-- The effective priority index (R282): 24 to 31 fall back to 0. -/
def effectivePriority (p : BitVec 5) : Fin 24 := if h : p.toNat < 24 then ⟨p.toNat, h⟩ else 0

/-- The diagnostic of `EffectivePriority(p, g)` (R282). -/
def State.checkPriority (s : State) (group : Nat) (p : BitVec 5) : State :=
  s.raiseIf (decide (p.toNat ≥ 24)) (.priorityRange group p)

/-- The source pixel of layer `l` at frame pixel (x, y), scrolled with wraparound (R88, R284). -/
def sourcePixel (s : State) (l : Layer) (x y : Nat) : Byte :=
  s.pixel l ((x + s.regs.scrollX.get l) % 512) ((y + s.regs.scrollY.get l) % 512)

/-- The palette mapping (R284): the complement is taken at 16 bits (D40). -/
def mapped (r : RegisterFile) (l : Layer) (p : Byte) : FramePixel :=
  (p &&& r.paletteMask.get l).setWidth 16 ||| (r.paletteBase.get l &&& ~~~((r.paletteMask.get l).setWidth 16))

/-- `DrawLayer(l, en)` at one frame pixel (R284): `below` is what is painted there so far. -/
def drawLayerAt (s : State) (x y : Nat) (en : Byte) (below : FramePixel) (l : Layer) : FramePixel :=
  if layerEnabled en l && !transparent s.regs l (sourcePixel s l x y)
  then mapped s.regs l (sourcePixel s l x y) else below

/-- The layers 0 to 3 in paint order, bottom first (R280, R283). -/
def firstGroup (s : State) : List Layer :=
  ((s.config.perm.get (effectivePriority s.regs.priorityIndex)).toList).map layerA

/-- The layers 4 to 7 in paint order (R280, R283). -/
def secondGroup (s : State) : List Layer :=
  ((s.config.perm.get (effectivePriority s.regs.priorityIndex2)).toList).map layerB

/-- The pixel `F[y][x]` (R280): background (R281), the first group, and with EIGHT_LAYER the second group over it. -/
def framePixel (s : State) (x y : Nat) : FramePixel :=
  let bg : FramePixel := s.regs.bgColor.setWidth 16
  let low := (firstGroup s).foldl (drawLayerAt s x y s.regs.layerEnableMask) bg
  if s.config.eightLayer then (secondGroup s).foldl (drawLayerAt s x y s.regs.layerEnableMask2) low else low

/-- The frame, `VIS_H` rows of `VIS_W` pixels (R63, R280). -/
def frameOf (s : State) : List (List FramePixel) :=
  (List.range s.config.visHeight).map (fun y => (List.range s.config.visWidth).map (fun x => framePixel s x y))

/-- The diagnostics of `composite_frame()`: group 0 before group 1, the second only with EIGHT_LAYER (R280, R303). -/
def checkPriorities (s : State) : State :=
  let t := s.checkPriority 0 s.regs.priorityIndex
  if s.config.eightLayer then t.checkPriority 1 s.regs.priorityIndex2 else t

/-- `composite_frame()` (R280): the frame is handed out; nothing but DIAG changes. -/
def compositeFrame (s : State) : State := (checkPriorities s).emit (.frame (frameOf s))

end Sys2Proof.Machine
end

