-- ==== Sys2Proof/Machine/HostEntries.lean ====
section
/-! DEFINITION. The entries of the host interface (R65) that are no row of the opcode table: completion (R311), status
(R313), getters (R66), reset (R340), construction (R345), the single-port adapter (R136). -/

namespace Sys2Proof.Machine

/-- `complete()` (R311): redeem one token and pulse; not enabled with no token pending. -/
def completeToken (s : State) : Result :=
  if s.pending > 0 then .next ({ s with pending := s.pending - 1 }.emit .blitComplete)
  else .refused .completeNotEnabled

/-- `read_status()` (R313). -/
def readStatus (s : State) : State := s.emit (.status (statusByte s))

/-- A flag as a getter returns it. -/
def boolValue (b : Bool) : Int := if b then 1 else 0

/-- The value of a field (R66): bit fields as unsigned numbers, `int` fields unreduced. DESIGN CHOICE (log 25): R64 says
that the two latches are visible only through the next apply, and R66 gives every field of R21 to R52 a getter, theirs
(R51, R52) among them; the model follows R66. -/
def fieldValue (s : State) (f : Field) : Int :=
  let r := s.regs
  match f with
  | .destLayerMask => r.destLayerMask.toNat
  | .blitX => r.blitX
  | .blitY => r.blitY
  | .blitAddress => r.blitAddress.toNat
  | .pen => r.pen.toNat
  | .penMode => boolValue r.penMode
  | .penMask => r.penMask.toNat
  | .rectWidth => r.rectWidth
  | .rectHeight => r.rectHeight
  | .lineLength => r.lineLength
  | .flipX => boolValue r.flip.x
  | .flipY => boolValue r.flip.y
  | .flipSwapXY => boolValue r.flip.swapXY
  | .clipX => r.clip.x
  | .clipY => r.clip.y
  | .clipWidth => r.clip.width
  | .clipHeight => r.clip.height
  | .clipCtrl => r.clip.ctrl.toNat
  | .priorityIndex => r.priorityIndex.toNat
  | .priorityIndex2 => r.priorityIndex2.toNat
  | .layerEnableMask => r.layerEnableMask.toNat
  | .layerEnableMask2 => r.layerEnableMask2.toNat
  | .bgColor => r.bgColor.toNat
  | .bgColor2 => r.bgColor2.toNat
  | .scrollX l => r.scrollX.get l
  | .scrollY l => r.scrollY.get l
  | .paletteBase l => (r.paletteBase.get l).toNat
  | .paletteMask l => (r.paletteMask.get l).toNat
  | .transparencyPen l => (r.transparencyPen.get l).toNat
  | .transparencyMask l => (r.transparencyMask.get l).toNat
  | .selectedRegister => s.latchA.toNat
  | .selectedRegisterB => s.latchB.toNat

/-- A getter (R66): it changes nothing. -/
def getField (f : Field) (s : State) : State := s.emit (.value f (fieldValue s f))

/-- `reset()` (R340): pixmaps, registers, latches, PENDING and DIAG at their reset values; the configuration stays. What
the host has still to ask and what it was handed are the host's and stay (log 20). -/
def resetDevice (s : State) : State := { State.fresh s.config with inbox := s.inbox, outputs := s.outputs }

/-- Construction (R345): refused for an illegal configuration, else the device right after reset. -/
def State.construct (cfg : Config) : Result :=
  if cfg.legal then .next (State.fresh cfg) else .refused .illegalConfiguration

/-- The phase of a single-port address (R136, R17): bit PORT_PHASE_BIT set means apply. -/
def portPhase (cfg : Config) (address : Nat) : Bool := address.testBit cfg.portPhaseBit

end Sys2Proof.Machine
end

