-- ==== Sys2Proof/Machine/Fetch.lean ====
section
/-! DEFINITION. What the next step does: while an invocation runs, the next item of the bitstream; otherwise the host's
next entry (R80: no entry is served in the middle of one; log 4). -/

namespace Sys2Proof.Machine

/-- What a step has to do: nothing, run an instruction in a state, or nothing but an outcome already known. -/
inductive Fetched where
  | idle
  | instr (i : Instr) (s : State)
  | done (r : Result)

/-- The ROM_OVERRUN records that a fetch raised (R202). -/
def State.raiseOverruns (s : State) (bits : List Nat) : State := { s with diag := s.diag ++ bits.map .romOverrun }

/-- The header of an invocation (R201): the cursor moves past it. -/
def fetchHeader (c : BitCursor) (s : State) : Fetched :=
  let f := decodeHeader s.config c.port
  .instr f.1 ((s.raiseOverruns f.2.raised).withDecoder (.header f.2.cursor))

/-- The next command of an invocation (R200): the cursor moves past it. -/
def fetchCommand (w : Working) (s : State) : Fetched :=
  let f := decodeCommand s.config w.argSize w.penSize w.cursor.port
  .instr f.1 ((s.raiseOverruns f.2.raised).withDecoder (.running { w with cursor := f.2.cursor }))

/-- Serve one entry of the host (R65). A canonical pair latches its select byte here and runs its row (log 6). -/
def serve (e : HostEntry) (s : State) : Fetched :=
  match e with
  | .select p b => .instr (.sel p b) s
  | .apply p d => .instr (.app p d) s
  | .wideWrite p w => .instr (decodeWord s.config p w) (s.withLatch p (wordSelect w))
  | .portWrite a b => .instr (if portPhase s.config a then .app .a b else .sel .a b) s
  | .readStatus => .done (.next (readStatus s))
  | .get f => .done (.next (getField f s))
  | .complete => .done (completeToken s)
  | .compositeFrame => .done (.next (compositeFrame s))
  | .reset => .done (.next (resetDevice s))

/-- What the next step does. -/
def fetch (s : State) : Fetched :=
  match s.decoder with
  | .header c => fetchHeader c s
  | .running w => fetchCommand w s
  | .idle =>
    match s.inbox with
    | [] => .idle
    | e :: es => serve e (s.withInbox es)

/-- The state in which the next step runs a word of the opcode table (log 8): a bitstream opcode below 8 stands at the
start of a ROM of zeros, in a running invocation with operand sizes 1; any other byte is the host's next select, and a
16-bit word its next canonical pair, both on pair A. -/
def placeWord (s : State) (nbits w : Nat) : State :=
  if nbits ≤ 8 then
    if w < 8 then
      { s with
        config := { s.config with rom := tableRom w }
        decoder := .running (initWorking s.regs { cur := 0, overrunLogged := false } 1 1) }
    else { s with decoder := .idle, inbox := .select .a (BitVec.ofNat 8 w) :: s.inbox }
  else { s with decoder := .idle, inbox := .wideWrite .a (BitVec.ofNat 16 w) :: s.inbox }

end Sys2Proof.Machine
end

