-- ==== Sys2Proof/Machine/Step.lean ====
section
/-! DEFINITION. One step of the machine. -/

namespace Sys2Proof.Machine

/-- One step: serve the host's next entry, or run the next item of the running invocation; with nothing to do the device
waits unchanged (log 2). -/
def step (s : State) : Host.Outcome State Fault Refusal :=
  match fetch s with
  | .idle => .next s
  | .instr i t => exec i t
  | .done r => r

/-- `s` with a word of the opcode table placed so that the very next step runs it. -/
def State.withFetchWord (s : State) (nbits w : Nat) : State := placeWord s nbits w

end Sys2Proof.Machine
end

