-- ==== Sys2Proof/Safety.lean ====
section
/-! DEFINITION. The terms that claims use: the invariant of every reachable state, which address a plot stores to, what a
safe run is. -/

namespace Sys2Proof.Machine

/-- The ranges that 10_state.md gives the stored values (R21 to R44, R54); the widths of bit fields the types say.
`dest_layer_mask` and `palette_base` keep bits 15:10 zero (R21, R41); `blit_x` and `blit_y` only ever grow from values
0..1023 (R22, R23). -/
abbrev RegisterFile.Legal (r : RegisterFile) : Prop :=
  r.destLayerMask.toNat ≤ 1023 ∧ 0 ≤ r.blitX ∧ 0 ≤ r.blitY ∧
  r.rectWidth ≤ 1023 ∧ r.rectHeight ≤ 1023 ∧ r.lineLength ≤ 1023 ∧
  r.clip.x ≤ 1023 ∧ r.clip.y ≤ 1023 ∧ r.clip.width ≤ 1023 ∧ r.clip.height ≤ 1023 ∧
  (∀ l : Layer, r.scrollX.get l ≤ 1023) ∧ (∀ l : Layer, r.scrollY.get l ≤ 1023) ∧
  (∀ l : Layer, (r.paletteBase.get l).toNat ≤ 1023)

/-- The working values' ranges (R56): in front of the header the cursor is a multiple of `U` inside the ROM and nothing
has overrun (R55, R76, R201); in an invocation both sizes are in their ranges, and the overrun is logged exactly when a
bit past the end was fetched (R202). -/
def Decoder.legal (cfg : Config) : Decoder → Bool
  | .idle => true
  | .header c =>
    decide (c.cur % cfg.unitBits = 0) && decide (c.cur < 8 * cfg.romLength) && !c.overrunLogged
  | .running w =>
    decide (1 ≤ w.penSize) && decide (w.penSize ≤ 4) && decide (1 ≤ w.argSize) && decide (w.argSize ≤ 8) &&
      (w.cursor.overrunLogged == decide (8 * cfg.romLength < w.cursor.cur))

/-- The invariant of every state that a constructed device reaches (R54, R56, R302, R345). -/
abbrev State.Inv (s : State) : Prop :=
  Memory.wf s.mem = true ∧ s.regs.Legal ∧ s.decoder.legal s.config = true ∧ s.config.legal = true ∧
  Diag.lineLengthRange ∉ s.diag

/-- `Plot(x, y, _)` stores to memory address `a`: the pixel is not rejected, and `a` is its address in a selected layer
(R240 to R244). -/
def Hits (s : State) (x y : Int) (a : Nat) : Prop :=
  let q := swapIf s.regs.flip.swapXY x y
  rejected s.config.clipForm s.regs.clip (wrap512 q.1) (wrap512 q.2) = false ∧
  ∃ l : Layer, layerSelected s.regs.destLayerMask l = true ∧ a = pixelAddress l (wrap512 q.1) (wrap512 q.2)

/-- No step of the run faults (R258, R304: a constructed device never fails). -/
def SafeRun (n : Nat) (s : State) : Prop := ∀ k ≤ n, ∀ r, Host.Core.run Sys2Proof.core k s ≠ .fault r

/-- The number of tokens handed to the host (R160). -/
def tokensIn : List Output → Nat
  | [] => 0
  | .token _ _ :: os => tokensIn os + 1
  | .blitComplete :: os => tokensIn os
  | .status _ :: os => tokensIn os
  | .value _ _ :: os => tokensIn os
  | .frame _ :: os => tokensIn os

/-- The number of blit-complete pulses (R311). -/
def pulsesIn : List Output → Nat
  | [] => 0
  | .token _ _ :: os => pulsesIn os
  | .blitComplete :: os => pulsesIn os + 1
  | .status _ :: os => pulsesIn os
  | .value _ _ :: os => pulsesIn os
  | .frame _ :: os => pulsesIn os

end Sys2Proof.Machine
end

