-- ==== Sys2Proof/Certificates/Slice0/Obligations.lean ====
section
/-! DEFINITION. The statements for the provers. Each is for every state (or every value) it names; what an instruction
leaves unchanged is said by giving the whole next state. Statements that rest on a decision of the spec (D<n>) or on a
choice of the model (log <n>) say so in their title and are marked derived. -/

open Sys2Proof Sys2Proof.Machine

/-! ## Terms of the statements, written from the rules -/

/-- The fetch unit in bits (R8). -/
def Claims.unit (cfg : Config) : Nat :=
  match cfg.fetchUnit with
  | .u8 => 8
  | .u16 => 16

/-- The end of the ROM as a bit address, `8 * L`. -/
def Claims.romEnd (cfg : Config) : Nat := 8 * cfg.rom.length

/-- The canonical pair, as one word, that writes `v` to the register with this index: carry `v[9:8]` and index in the
select byte, `v[7:0]` the apply byte (R101, R102). -/
def Claims.pair (index : BitVec 6) (v : BitVec 10) : BitVec 16 := v.extractLsb' 8 2 ++ index ++ v.extractLsb' 0 8

/-- +1 or -1 (R56). -/
def Claims.sign : Dir → Int
  | .inc => 1
  | .dec => -1

/-- The instruction is the header (it has a decoder of its own). -/
def Claims.isHeader : Instr → Prop
  | .hdr _ _ => True
  | _ => False

/-- One accepted start: one more pending token, handed to the host with its family's delay (R160). -/
def Claims.Started (s t : State) : Prop :=
  t.pending = s.pending + 1 ∧ ∃ f, t.outputs = s.outputs ++ [.token f (s.config.delay f)]

/-- Everything but the pixmaps, PENDING and the outputs is unchanged. -/
def Claims.OnlyStores (s t : State) : Prop :=
  t = { s with mem := t.mem, pending := t.pending, outputs := t.outputs }

/-- The ROM_OVERRUN records of fetching `n` bits from a cursor: one, with the first address past the end, unless one was
logged before (R75, R202). -/
def Claims.overruns (cfg : Config) (c : BitCursor) (n : Nat) : List Diag :=
  if c.overrunLogged = false ∧ max c.cur (Claims.romEnd cfg) < c.cur + n
  then [.romOverrun (max c.cur (Claims.romEnd cfg))] else []

/-- The cursor after fetching `n` bits. -/
def Claims.after (cfg : Config) (c : BitCursor) (n : Nat) : BitCursor :=
  { cur := c.cur + n
    overrunLogged := c.overrunLogged || decide (max c.cur (Claims.romEnd cfg) < c.cur + n) }

/-- The PEN_SIZE_RANGE record of a field, if its size is above 4 (R104, R210). -/
def Claims.penRange (f : Nat) : List Diag := if f + 1 > 4 then [.penSizeRange (f + 1)] else []

/-- The ARG_SIZE_RANGE record of a field, if its size is above 8 (R104, R209). -/
def Claims.argRange (f : Nat) : List Diag := if f + 1 > 8 then [.argSizeRange (f + 1)] else []

/-- The row that writes `v` to a register (R140 to R159, R163 to R172); START stores nothing, its rows are the start rows. -/
def Claims.writeRow (r : Reg) (v : BitVec 10) : Option Instr :=
  match r with
  | .destLayer => some (.wrDestLayer v)
  | .flip => some (.wrFlip v)
  | .blitX => some (.wrBlitX v)
  | .blitY => some (.wrBlitY v)
  | .rectWidth => some (.wrRectWidth v)
  | .rectHeight => some (.wrRectHeight v)
  | .lineLength => some (.wrLineLength v)
  | .pen => some (.wrPen v)
  | .penMode => some (.wrPenMode v)
  | .penMask => some (.wrPenMask v)
  | .clipX => some (.wrClipX v)
  | .clipY => some (.wrClipY v)
  | .clipWidth => some (.wrClipWidth v)
  | .clipHeight => some (.wrClipHeight v)
  | .clipCtrl => some (.wrClipCtrl v)
  | .addrLo => some (.wrAddrLo v)
  | .addrMid => some (.wrAddrMid v)
  | .addrHi => some (.wrAddrHi v)
  | .start => none
  | .priority => some (.wrPriority v)
  | .layerEnable => some (.wrLayerEnable v)
  | .bgColor => some (.wrBgColor v)
  | .priority2 => some (.wrbPriority2 v)
  | .layerEnable2 => some (.wrbLayerEnable2 v)
  | .bgColor2 => some (.wrbBgColor2 v)
  | .scrollX 0 => some (.wrScrollX0 v)
  | .scrollX 1 => some (.wrScrollX1 v)
  | .scrollX 2 => some (.wrScrollX2 v)
  | .scrollX 3 => some (.wrScrollX3 v)
  | .scrollX 4 => some (.wrbScrollX4 v)
  | .scrollX 5 => some (.wrbScrollX5 v)
  | .scrollX 6 => some (.wrbScrollX6 v)
  | .scrollX 7 => some (.wrbScrollX7 v)
  | .scrollY 0 => some (.wrScrollY0 v)
  | .scrollY 1 => some (.wrScrollY1 v)
  | .scrollY 2 => some (.wrScrollY2 v)
  | .scrollY 3 => some (.wrScrollY3 v)
  | .scrollY 4 => some (.wrbScrollY4 v)
  | .scrollY 5 => some (.wrbScrollY5 v)
  | .scrollY 6 => some (.wrbScrollY6 v)
  | .scrollY 7 => some (.wrbScrollY7 v)
  | .paletteBase 0 => some (.wrPaletteBase0 v)
  | .paletteBase 1 => some (.wrPaletteBase1 v)
  | .paletteBase 2 => some (.wrPaletteBase2 v)
  | .paletteBase 3 => some (.wrPaletteBase3 v)
  | .paletteBase 4 => some (.wrbPaletteBase4 v)
  | .paletteBase 5 => some (.wrbPaletteBase5 v)
  | .paletteBase 6 => some (.wrbPaletteBase6 v)
  | .paletteBase 7 => some (.wrbPaletteBase7 v)
  | .paletteMask 0 => some (.wrPaletteMask0 v)
  | .paletteMask 1 => some (.wrPaletteMask1 v)
  | .paletteMask 2 => some (.wrPaletteMask2 v)
  | .paletteMask 3 => some (.wrPaletteMask3 v)
  | .paletteMask 4 => some (.wrbPaletteMask4 v)
  | .paletteMask 5 => some (.wrbPaletteMask5 v)
  | .paletteMask 6 => some (.wrbPaletteMask6 v)
  | .paletteMask 7 => some (.wrbPaletteMask7 v)
  | .transPen 0 => some (.wrTransPen0 v)
  | .transPen 1 => some (.wrTransPen1 v)
  | .transPen 2 => some (.wrTransPen2 v)
  | .transPen 3 => some (.wrTransPen3 v)
  | .transPen 4 => some (.wrbTransPen4 v)
  | .transPen 5 => some (.wrbTransPen5 v)
  | .transPen 6 => some (.wrbTransPen6 v)
  | .transPen 7 => some (.wrbTransPen7 v)
  | .transMask 0 => some (.wrTransMask0 v)
  | .transMask 1 => some (.wrTransMask1 v)
  | .transMask 2 => some (.wrTransMask2 v)
  | .transMask 3 => some (.wrTransMask3 v)
  | .transMask 4 => some (.wrbTransMask4 v)
  | .transMask 5 => some (.wrbTransMask5 v)
  | .transMask 6 => some (.wrbTransMask6 v)
  | .transMask 7 => some (.wrbTransMask7 v)

/-- The row of START with an operation of STARTMAP, or with none (R160, R161). -/
def Claims.startRow (o : Option StartOp) (c : BitVec 2) (code : Byte) : Instr :=
  match o with
  | some .fillAll => .goFillAll c
  | some .fillFromXY => .goFillFromXY c
  | some .fillRect => .goFillRect c
  | some .fillBand => .goFillBand c
  | some .hline => .goHline c
  | some .vline => .goVline c
  | some .romDraw => .goRomDraw c
  | none => .goUnknown c code

/-- The registers of the WRB rows: the second group's and those of layers 4 to 7 (R107). -/
def Claims.ofPairB : Reg → Prop
  | .priority2 | .layerEnable2 | .bgColor2 => True
  | .scrollX l | .scrollY l | .paletteBase l | .paletteMask l | .transPen l | .transMask l => 4 ≤ l.val
  | _ => False

/-- The configuration with eight layers (R12). -/
def Claims.eightLayers (cfg : Config) : Config := { cfg with eightLayer := true }

/-- The value of a field as its getter returns it: bit fields unsigned, a flag as 0 or 1, `int` fields unreduced (R66, D52). -/
def Claims.getterValue (s : State) (f : Field) : Int :=
  match f with
  | .destLayerMask => s.regs.destLayerMask.toNat
  | .blitX => s.regs.blitX
  | .blitY => s.regs.blitY
  | .blitAddress => s.regs.blitAddress.toNat
  | .pen => s.regs.pen.toNat
  | .penMode => if s.regs.penMode = true then 1 else 0
  | .penMask => s.regs.penMask.toNat
  | .rectWidth => s.regs.rectWidth
  | .rectHeight => s.regs.rectHeight
  | .lineLength => s.regs.lineLength
  | .flipX => if s.regs.flip.x = true then 1 else 0
  | .flipY => if s.regs.flip.y = true then 1 else 0
  | .flipSwapXY => if s.regs.flip.swapXY = true then 1 else 0
  | .clipX => s.regs.clip.x
  | .clipY => s.regs.clip.y
  | .clipWidth => s.regs.clip.width
  | .clipHeight => s.regs.clip.height
  | .clipCtrl => s.regs.clip.ctrl.toNat
  | .priorityIndex => s.regs.priorityIndex.toNat
  | .priorityIndex2 => s.regs.priorityIndex2.toNat
  | .layerEnableMask => s.regs.layerEnableMask.toNat
  | .layerEnableMask2 => s.regs.layerEnableMask2.toNat
  | .bgColor => s.regs.bgColor.toNat
  | .bgColor2 => s.regs.bgColor2.toNat
  | .scrollX l => s.regs.scrollX.get l
  | .scrollY l => s.regs.scrollY.get l
  | .paletteBase l => (s.regs.paletteBase.get l).toNat
  | .paletteMask l => (s.regs.paletteMask.get l).toNat
  | .transparencyPen l => (s.regs.transparencyPen.get l).toNat
  | .transparencyMask l => (s.regs.transparencyMask.get l).toNat
  | .selectedRegister => s.latchA.toNat
  | .selectedRegisterB => s.latchB.toNat

/-- The source byte of a layer at a frame pixel (R88, R284). -/
def Claims.source (s : State) (l : Layer) (x y : Nat) : Byte :=
  s.mem.read (262144 * l.val + 512 * ((y + s.regs.scrollY.get l) % 512) + (x + s.regs.scrollX.get l) % 512)

/-- The layers in paint order, bottom first, each with its group's enable mask: the row of PERM that the priority index
names (row 0 for 24 to 31, R282), and over it, with EIGHT_LAYER, the second group's (R280, R283). -/
def Claims.paintOrder (s : State) : List (Layer × Byte) :=
  let row := fun (p : BitVec 5) =>
    (s.config.perm.toList.getD (if p.toNat < 24 then p.toNat else 0) ⟨0, 1, 2, 3⟩)
  let group := fun (o : PaintOrder) (base : Nat) (en : Byte) =>
    [o.bottom, o.second, o.third, o.top].map (fun k => ((⟨(base + k.val) % 8, Nat.mod_lt _ (by decide)⟩ : Layer), en))
  group (row s.regs.priorityIndex) 0 s.regs.layerEnableMask ++
    (if s.config.eightLayer then group (row s.regs.priorityIndex2) 4 s.regs.layerEnableMask2 else [])

/-- A layer contributes at a frame pixel: enabled, and not transparent there (R284). -/
def Claims.Opaque (s : State) (x y : Nat) (q : Layer × Byte) : Prop :=
  q.2.getLsbD (q.1.val % 4) = true ∧
  (Claims.source s q.1 x y &&& s.regs.transparencyMask.get q.1) ≠ s.regs.transparencyPen.get q.1

/-- The state with another `pen_mask`. -/
def Claims.withPenMask (s : State) (b : Byte) : State := { s with regs := { s.regs with penMask := b } }

/-- An outcome with `pen_mask` blanked out. -/
def Claims.hidePenMask : Host.Outcome State Fault Refusal → Host.Outcome State Fault Refusal
  | .next t => .next (Claims.withPenMask t 0)
  | .fault r => .fault r
  | .refused r => .refused r

/-- The next step serves this host entry. -/
def Claims.Serves (s : State) (e : HostEntry) : Prop := s.decoder = .idle ∧ ∃ es, s.inbox = e :: es

/-! ## The statements -/

/-- For every configuration and every well-formed instruction: it has an encoding, and where that is a host word,
decoding the word on its port pair gives the instruction back; where it is a select or an apply byte, the
instruction is SEL or APP of that byte on that pair. The indices and start codes are those of the configuration;
which of several indices, codes or pairs the encoder takes is the model's choice (log 24). -/
def Obligations.HostInstructionsDecodeAfterEncode : Prop :=
  ∀ (cfg : Config) (a p : Nat) (i : Instr), i.wellFormed cfg a p = true →
    (∃ e, encode cfg a p i = some e) ∧
    (∀ q w, encode cfg a p i = some (.word q w) → decodeWord cfg q w = i) ∧
    (∀ q b, encode cfg a p i = some (.selectByte q b) → i = .sel q b) ∧
    (∀ q d, encode cfg a p i = some (.applyByte q d) → i = .app q d)

/-- For every configuration, all operand sizes, every well-formed bitstream instruction and every cursor: if the
bits of its encoding stand in the stream at the cursor, the decoder (of the header for HDR, of commands
otherwise) reads exactly that instruction and moves the cursor by the number of those bits. Bit order is the
decision D13 of the spec, opcodes are those of the command table. -/
def Obligations.BitstreamDecodesAfterEncode : Prop :=
  ∀ (cfg : Config) (a p : Nat) (i : Instr) (bits : List Bool) (q : BitPort),
    i.wellFormed cfg a p = true → encode cfg a p i = some (.stream bits) →
    streamAt cfg.rom q.cursor.cur bits = true →
    (Claims.isHeader i → (decodeHeader cfg q).1 = i ∧ (decodeHeader cfg q).2.cursor.cur = q.cursor.cur + bits.length) ∧
    (¬ Claims.isHeader i →
      (decodeCommand cfg a p q).1 = i ∧ (decodeCommand cfg a p q).2.cursor.cur = q.cursor.cur + bits.length)

/-- For every configuration, port pair and 16-bit word, with index bits 13:8, carry bits 15:14 and data bits 7:0: an
index that the layout of the pair gives a register other than START decodes to the row that writes carry:data to
that register, whichever of several indices of the register it is; an index it gives START decodes to the row of
the operation that STARTMAP gives the data byte, or to the unknown-start row; any other index decodes to the
undefined-index row of the pair; and the decoded instruction has an encoding under the configuration. -/
def Obligations.DecodedHostWordsAreWellFormed : Prop :=
  ∀ (cfg : Config) (q : PortPair) (w : BitVec 16) (a p : Nat),
    (decodeWord cfg q w).wellFormed cfg a p = true ∧
    (∀ r i, cfg.reg q (w.extractLsb' 8 6) = some r → Claims.writeRow r (w.extractLsb' 14 2 ++ w.extractLsb' 0 8) = some i →
      decodeWord cfg q w = i) ∧
    (cfg.reg q (w.extractLsb' 8 6) = some .start →
      decodeWord cfg q w =
        Claims.startRow (cfg.startOp (w.extractLsb' 0 8)) (w.extractLsb' 14 2) (w.extractLsb' 0 8)) ∧
    (cfg.reg q (w.extractLsb' 8 6) = none →
      decodeWord cfg q w =
        .wrUndefinedIndex q (w.extractLsb' 8 6) (w.extractLsb' 14 2 ++ w.extractLsb' 0 8))

/-- For every configuration, every cursor and operand sizes in their ranges 1 to 8 and 1 to 4, the command read
there is well-formed (its operands fit in the current sizes and its operation has an opcode), it is not a
header, its encoding is bits of the stream, and the cursor has moved by as many bits. -/
def Obligations.DecodedCommandsAreWellFormed : Prop :=
  ∀ (cfg : Config) (a p : Nat) (q : BitPort), sizesLegal a p = true →
    (decodeCommand cfg a p q).1.wellFormed cfg a p = true ∧ ¬ Claims.isHeader (decodeCommand cfg a p q).1 ∧
    ∃ bits, encode cfg a p (decodeCommand cfg a p q).1 = some (.stream bits) ∧
      (decodeCommand cfg a p q).2.cursor.cur = q.cursor.cur + bits.length

/-- In the default configuration (the default indices, start codes and opcodes are decisions D1 to D4 of the spec):
six host words and three streams written out bit by bit decode to the instructions they stand for. -/
def Obligations.WordsOfTheEncodingTablesDecode : Prop :=
  decodeWord Config.default .a 0b11_000010_00101100 = .wrBlitX 0x32C ∧
  decodeWord Config.default .a 0b01_101000_00110000 = .wrPaletteBase0 0x130 ∧
  decodeWord Config.default .a 0b00_010010_00000101 = .goHline 0 ∧
  decodeWord Config.default .a 0b11_010010_11101110 = .goUnknown 3 0xEE ∧
  decodeWord Config.default .a 0b10_111000_10101010 = .wrUndefinedIndex .a 0x38 0x2AA ∧
  decodeWord { Config.default with eightLayer := true } .b 0b01_100000_00010000 = .wrbScrollX4 0x110 ∧
  (decodeCommand { Config.default with rom := [0b001_101_11] } 3 2 (BitCursor.port ⟨0, false⟩)).1 = .draw 5 3 ∧
  (decodeCommand { Config.default with rom := [0b010_10_000, 0b1_0010_111, 0b1_0000000] } 2 4
    (BitCursor.port ⟨0, false⟩)).1 = .copy 1 [2, 15] ∧
  (decodeHeader { Config.default with rom := [0x5B] } (BitCursor.port ⟨0, false⟩)).1 = .hdr 5 11

/-- When no invocation runs, a step takes the next entry off the inbox and runs its instruction: SEL for select, APP
for apply; for a pair it latches the select byte and runs the row the word decodes to; for port_write it runs
SEL or APP of pair A by the phase bit (default position by decision D10). That the pair is one step is the
model's choice (log 7). -/
def Obligations.StepRunsTheHostsInstruction : Prop :=
  ∀ (s : State) (p : PortPair) (b : Byte) (w : BitVec 16) (address : Nat) (es : List HostEntry), s.decoder = .idle →
    (s.inbox = .select p b :: es → step s = exec (.sel p b) { s with inbox := es }) ∧
    (s.inbox = .apply p b :: es → step s = exec (.app p b) { s with inbox := es }) ∧
    (s.inbox = .wideWrite p w :: es →
      step s = exec (decodeWord s.config p w) (({ s with inbox := es } : State).withLatch p (w.extractLsb' 8 8))) ∧
    (s.inbox = .portWrite address b :: es → address.testBit s.config.portPhaseBit = false →
      step s = exec (.sel .a b) { s with inbox := es }) ∧
    (s.inbox = .portWrite address b :: es → address.testBit s.config.portPhaseBit = true →
      step s = exec (.app .a b) { s with inbox := es })

/-- In front of the header a step decodes the header at the cursor and runs it; in front of a command it decodes the
command with the current operand sizes and runs it; in both cases on the state whose cursor stands after the
item and whose log has the fetch's overrun record. That an item is one step is the model's choice (log 4). -/
def Obligations.StepRunsTheStreamsItem : Prop :=
  ∀ (s : State),
    (∀ c, s.decoder = .header c → ∀ i q, decodeHeader s.config c.port = (i, q) →
      step s = exec i { s with decoder := .header q.cursor, diag := s.diag ++ q.raised.map .romOverrun }) ∧
    (∀ w, s.decoder = .running w → ∀ i q, decodeCommand s.config w.argSize w.penSize w.cursor.port = (i, q) →
      step s = exec i { s with
        decoder := .running { w with cursor := q.cursor }, diag := s.diag ++ q.raised.map .romOverrun })

/-- For every well-formed bitstream instruction whose bits stand at the cursor: the step is exec of it on the state
whose cursor has moved by its length and whose log has gained one ROM_OVERRUN record exactly when its bits reach
past the end of the ROM for the first time in the invocation. Rests on the bit order D13 and on log 4. -/
def Obligations.StepRunsTheEncodedItem : Prop :=
  ∀ (s : State) (i : Instr) (bits : List Bool),
    (∀ c a p, s.decoder = .header c → Claims.isHeader i → encode s.config a p i = some (.stream bits) →
      streamAt s.config.rom c.cur bits = true →
      step s = exec i { s with
        decoder := .header (Claims.after s.config c bits.length)
        diag := s.diag ++ Claims.overruns s.config c bits.length }) ∧
    (∀ w, s.decoder = .running w → ¬ Claims.isHeader i → i.wellFormed s.config w.argSize w.penSize = true →
      encode s.config w.argSize w.penSize i = some (.stream bits) → streamAt s.config.rom w.cursor.cur bits = true →
      step s = exec i { s with
        decoder := .running { w with cursor := Claims.after s.config w.cursor bits.length }
        diag := s.diag ++ Claims.overruns s.config w.cursor bits.length })

/-- The device does nothing on its own: with no invocation running and nothing asked of it, the step answers the
same state. This is the model's convention for waiting (notes/assumptions/2.md). -/
def Obligations.IdleDeviceWaits : Prop :=
  ∀ (s : State), s.decoder = .idle → s.inbox = [] → step s = .next s

/-- For every idle state, port pair and word: one wide-write step answers exactly what a select step of the upper
byte followed by an apply step of the lower byte answers, state for state. -/
def Obligations.WideWriteIsSelectThenApply : Prop :=
  ∀ (s : State) (p : PortPair) (w : BitVec 16) (es : List HostEntry), s.decoder = .idle →
    Host.Core.run Sys2Proof.core 2
      { s with inbox := .select p (w.extractLsb' 8 8) :: .apply p (w.extractLsb' 0 8) :: es } =
    step { s with inbox := .wideWrite p w :: es }

/-- For every state, port pair and byte: apply answers a next state, the same one that the instruction decoded from
the latched select byte and the data byte answers; both latches, the configuration and the host's remaining
entries are unchanged (latch kept by decision D30). -/
def Obligations.ApplyActsAsTheSelectedRow : Prop :=
  ∀ (s : State) (p : PortPair) (d : Byte), ∃ t,
    exec (.app p d) s = .next t ∧ exec (decodeWord s.config p (s.latch p ++ d)) s = .next t ∧
    t.latchA = s.latchA ∧ t.latchB = s.latchB ∧ t.config = s.config ∧ t.inbox = s.inbox

/-- For every state and value these seven writes answer the state with that one field set to the 10-bit value and
everything else unchanged: every other register, the latches, the pixmaps, PENDING, DIAG; and at its default
index the pair of the value decodes to the write. -/
def Obligations.CoordinateWritesStoreTheValue : Prop :=
  ∀ (s : State) (v : BitVec 10),
    exec (.wrBlitY v) s = .next { s with regs := { s.regs with blitY := (v.toNat : Int) } } ∧
    exec (.wrRectWidth v) s = .next { s with regs := { s.regs with rectWidth := v.toNat } } ∧
    exec (.wrRectHeight v) s = .next { s with regs := { s.regs with rectHeight := v.toNat } } ∧
    exec (.wrClipX v) s = .next { s with regs := { s.regs with clip := { s.regs.clip with x := v.toNat } } } ∧
    exec (.wrClipY v) s = .next { s with regs := { s.regs with clip := { s.regs.clip with y := v.toNat } } } ∧
    exec (.wrClipWidth v) s = .next { s with regs := { s.regs with clip := { s.regs.clip with width := v.toNat } } } ∧
    exec (.wrClipHeight v) s = .next { s with regs := { s.regs with clip := { s.regs.clip with height := v.toNat } } } ∧
    decodeWord Config.default .a (Claims.pair 0x03 v) = .wrBlitY v ∧
    decodeWord Config.default .a (Claims.pair 0x04 v) = .wrRectWidth v ∧
    decodeWord Config.default .a (Claims.pair 0x05 v) = .wrRectHeight v ∧
    decodeWord Config.default .a (Claims.pair 0x0A v) = .wrClipX v ∧
    decodeWord Config.default .a (Claims.pair 0x0B v) = .wrClipY v ∧
    decodeWord Config.default .a (Claims.pair 0x0C v) = .wrClipWidth v ∧
    decodeWord Config.default .a (Claims.pair 0x0D v) = .wrClipHeight v

/-- For every state and value: dest_layer_mask takes the value zero-extended to 16 bits (D26), the 8-bit registers
take bits 7:0 (clip.ctrl all eight, D29; the others by D26 and their rules), priority_index takes bits 4:0;
nothing else changes and no diagnostic is raised; and at their default indices the pairs of PEN, PRIORITY and
BG_COLOR decode to the writes. The decisions are the spec's (log 16). -/
def Obligations.ByteWritesStoreTheirBits : Prop :=
  ∀ (s : State) (v : BitVec 10),
    exec (.wrDestLayer v) s = .next { s with regs := { s.regs with destLayerMask := BitVec.zeroExtend 16 v } } ∧
    exec (.wrPen v) s = .next { s with regs := { s.regs with pen := v.extractLsb' 0 8 } } ∧
    exec (.wrPenMask v) s = .next { s with regs := { s.regs with penMask := v.extractLsb' 0 8 } } ∧
    exec (.wrClipCtrl v) s = .next { s with regs := { s.regs with clip := { s.regs.clip with ctrl := v.extractLsb' 0 8 } } } ∧
    exec (.wrPriority v) s = .next { s with regs := { s.regs with priorityIndex := v.extractLsb' 0 5 } } ∧
    exec (.wrLayerEnable v) s = .next { s with regs := { s.regs with layerEnableMask := v.extractLsb' 0 8 } } ∧
    exec (.wrBgColor v) s = .next { s with regs := { s.regs with bgColor := v.extractLsb' 0 8 } } ∧
    decodeWord Config.default .a (Claims.pair 0x07 v) = .wrPen v ∧
    decodeWord Config.default .a (Claims.pair 0x13 v) = .wrPriority v ∧
    decodeWord Config.default .a (Claims.pair 0x15 v) = .wrBgColor v

/-- For every state and value each of the three writes answers the state whose blit_address has that one byte
replaced by bits 7:0 of the value and the other two bytes kept; nothing else changes. -/
def Obligations.AddressWritesReplaceTheirByte : Prop :=
  ∀ (s : State) (v : BitVec 10),
    (exec (.wrAddrLo v) s = .next { s with regs := { s.regs with blitAddress := s.regs.blitAddress.extractLsb' 8 16 ++ v.extractLsb' 0 8 } }) ∧
    (exec (.wrAddrMid v) s = .next { s with regs := { s.regs with blitAddress := s.regs.blitAddress.extractLsb' 16 8 ++ v.extractLsb' 0 8 ++ s.regs.blitAddress.extractLsb' 0 8 } }) ∧
    (exec (.wrAddrHi v) s = .next { s with regs := { s.regs with blitAddress := v.extractLsb' 0 8 ++ s.regs.blitAddress.extractLsb' 0 16 } })

/-- For every state and value: blit_x and line_length take the whole value with no sign extension and no diagnostic;
pen_mode takes bit 0; FLIP stores bits 0, 1 and 4 as x, y and swap_xy and, exactly when bits 3:2 are not zero,
records FLIP_RESERVED with them; palette_base takes the value zero-extended. Nothing else changes. -/
def Obligations.WritesWhoseFormatIsDecided : Prop :=
  ∀ (s : State) (v : BitVec 10),
    exec (.wrBlitX v) s = .next { s with regs := { s.regs with blitX := (v.toNat : Int) } } ∧
    exec (.wrLineLength v) s = .next { s with regs := { s.regs with lineLength := v.toNat } } ∧
    exec (.wrPenMode v) s = .next { s with regs := { s.regs with penMode := v.getLsbD 0 } } ∧
    exec (.wrFlip v) s = .next { s with
      regs := { s.regs with flip := { x := v.getLsbD 0, y := v.getLsbD 1, swapXY := v.getLsbD 4 } }
      diag := s.diag ++ (if v.extractLsb' 2 2 = 0 then [] else [.flipReserved (v.extractLsb' 2 2)]) } ∧
    exec (.wrPaletteBase0 v) s = .next { s with regs := { s.regs with paletteBase := s.regs.paletteBase.set 0 (v.zeroExtend 16) } } ∧
    exec (.wrPaletteBase1 v) s = .next { s with regs := { s.regs with paletteBase := s.regs.paletteBase.set 1 (v.zeroExtend 16) } } ∧
    exec (.wrPaletteBase2 v) s = .next { s with regs := { s.regs with paletteBase := s.regs.paletteBase.set 2 (v.zeroExtend 16) } } ∧
    exec (.wrPaletteBase3 v) s = .next { s with regs := { s.regs with paletteBase := s.regs.paletteBase.set 3 (v.zeroExtend 16) } }

/-- For every state and value each of these twenty writes answers the state with that one element of that one bank
set (the scrolls to the whole value, the others to bits 7:0) and everything else unchanged. The same rules for
layers 4 to 7 are the statement PairBWritesWithEightLayers. -/
def Obligations.LayerBankWritesStoreTheirLayer : Prop :=
  ∀ (s : State) (v : BitVec 10),
    exec (.wrScrollX0 v) s = .next { s with regs := { s.regs with scrollX := s.regs.scrollX.set 0 v.toNat } } ∧
    exec (.wrScrollX1 v) s = .next { s with regs := { s.regs with scrollX := s.regs.scrollX.set 1 v.toNat } } ∧
    exec (.wrScrollX2 v) s = .next { s with regs := { s.regs with scrollX := s.regs.scrollX.set 2 v.toNat } } ∧
    exec (.wrScrollX3 v) s = .next { s with regs := { s.regs with scrollX := s.regs.scrollX.set 3 v.toNat } } ∧
    exec (.wrScrollY0 v) s = .next { s with regs := { s.regs with scrollY := s.regs.scrollY.set 0 v.toNat } } ∧
    exec (.wrScrollY1 v) s = .next { s with regs := { s.regs with scrollY := s.regs.scrollY.set 1 v.toNat } } ∧
    exec (.wrScrollY2 v) s = .next { s with regs := { s.regs with scrollY := s.regs.scrollY.set 2 v.toNat } } ∧
    exec (.wrScrollY3 v) s = .next { s with regs := { s.regs with scrollY := s.regs.scrollY.set 3 v.toNat } } ∧
    exec (.wrPaletteMask0 v) s = .next { s with regs := { s.regs with paletteMask := s.regs.paletteMask.set 0 (v.extractLsb' 0 8) } } ∧
    exec (.wrPaletteMask1 v) s = .next { s with regs := { s.regs with paletteMask := s.regs.paletteMask.set 1 (v.extractLsb' 0 8) } } ∧
    exec (.wrPaletteMask2 v) s = .next { s with regs := { s.regs with paletteMask := s.regs.paletteMask.set 2 (v.extractLsb' 0 8) } } ∧
    exec (.wrPaletteMask3 v) s = .next { s with regs := { s.regs with paletteMask := s.regs.paletteMask.set 3 (v.extractLsb' 0 8) } } ∧
    exec (.wrTransPen0 v) s = .next { s with regs := { s.regs with transparencyPen := s.regs.transparencyPen.set 0 (v.extractLsb' 0 8) } } ∧
    exec (.wrTransPen1 v) s = .next { s with regs := { s.regs with transparencyPen := s.regs.transparencyPen.set 1 (v.extractLsb' 0 8) } } ∧
    exec (.wrTransPen2 v) s = .next { s with regs := { s.regs with transparencyPen := s.regs.transparencyPen.set 2 (v.extractLsb' 0 8) } } ∧
    exec (.wrTransPen3 v) s = .next { s with regs := { s.regs with transparencyPen := s.regs.transparencyPen.set 3 (v.extractLsb' 0 8) } } ∧
    exec (.wrTransMask0 v) s = .next { s with regs := { s.regs with transparencyMask := s.regs.transparencyMask.set 0 (v.extractLsb' 0 8) } } ∧
    exec (.wrTransMask1 v) s = .next { s with regs := { s.regs with transparencyMask := s.regs.transparencyMask.set 1 (v.extractLsb' 0 8) } } ∧
    exec (.wrTransMask2 v) s = .next { s with regs := { s.regs with transparencyMask := s.regs.transparencyMask.set 2 (v.extractLsb' 0 8) } } ∧
    exec (.wrTransMask3 v) s = .next { s with regs := { s.regs with transparencyMask := s.regs.transparencyMask.set 3 (v.extractLsb' 0 8) } }

/-- With EIGHT_LAYER, for every state and value: priority_index2 takes bits 4:0, layer_enable_mask2 and bg_color2
bits 7:0, and each per-layer register of layers 4 to 7 sets its own element of its own bank; nothing else
changes. -/
def Obligations.PairBWritesWithEightLayers : Prop :=
  ∀ (s : State) (v : BitVec 10), s.config.eightLayer = true →
    exec (.wrbPriority2 v) s = .next { s with regs := { s.regs with priorityIndex2 := v.extractLsb' 0 5 } } ∧
    exec (.wrbLayerEnable2 v) s = .next { s with regs := { s.regs with layerEnableMask2 := v.extractLsb' 0 8 } } ∧
    exec (.wrbBgColor2 v) s = .next { s with regs := { s.regs with bgColor2 := v.extractLsb' 0 8 } } ∧
    exec (.wrbScrollX4 v) s = .next { s with regs := { s.regs with scrollX := s.regs.scrollX.set 4 v.toNat } } ∧
    exec (.wrbScrollX5 v) s = .next { s with regs := { s.regs with scrollX := s.regs.scrollX.set 5 v.toNat } } ∧
    exec (.wrbScrollX6 v) s = .next { s with regs := { s.regs with scrollX := s.regs.scrollX.set 6 v.toNat } } ∧
    exec (.wrbScrollX7 v) s = .next { s with regs := { s.regs with scrollX := s.regs.scrollX.set 7 v.toNat } } ∧
    exec (.wrbScrollY4 v) s = .next { s with regs := { s.regs with scrollY := s.regs.scrollY.set 4 v.toNat } } ∧
    exec (.wrbScrollY5 v) s = .next { s with regs := { s.regs with scrollY := s.regs.scrollY.set 5 v.toNat } } ∧
    exec (.wrbScrollY6 v) s = .next { s with regs := { s.regs with scrollY := s.regs.scrollY.set 6 v.toNat } } ∧
    exec (.wrbScrollY7 v) s = .next { s with regs := { s.regs with scrollY := s.regs.scrollY.set 7 v.toNat } } ∧
    exec (.wrbPaletteBase4 v) s = .next { s with regs := { s.regs with paletteBase := s.regs.paletteBase.set 4 (v.zeroExtend 16) } } ∧
    exec (.wrbPaletteBase5 v) s = .next { s with regs := { s.regs with paletteBase := s.regs.paletteBase.set 5 (v.zeroExtend 16) } } ∧
    exec (.wrbPaletteBase6 v) s = .next { s with regs := { s.regs with paletteBase := s.regs.paletteBase.set 6 (v.zeroExtend 16) } } ∧
    exec (.wrbPaletteBase7 v) s = .next { s with regs := { s.regs with paletteBase := s.regs.paletteBase.set 7 (v.zeroExtend 16) } } ∧
    exec (.wrbPaletteMask4 v) s = .next { s with regs := { s.regs with paletteMask := s.regs.paletteMask.set 4 (v.extractLsb' 0 8) } } ∧
    exec (.wrbPaletteMask5 v) s = .next { s with regs := { s.regs with paletteMask := s.regs.paletteMask.set 5 (v.extractLsb' 0 8) } } ∧
    exec (.wrbPaletteMask6 v) s = .next { s with regs := { s.regs with paletteMask := s.regs.paletteMask.set 6 (v.extractLsb' 0 8) } } ∧
    exec (.wrbPaletteMask7 v) s = .next { s with regs := { s.regs with paletteMask := s.regs.paletteMask.set 7 (v.extractLsb' 0 8) } } ∧
    exec (.wrbTransPen4 v) s = .next { s with regs := { s.regs with transparencyPen := s.regs.transparencyPen.set 4 (v.extractLsb' 0 8) } } ∧
    exec (.wrbTransPen5 v) s = .next { s with regs := { s.regs with transparencyPen := s.regs.transparencyPen.set 5 (v.extractLsb' 0 8) } } ∧
    exec (.wrbTransPen6 v) s = .next { s with regs := { s.regs with transparencyPen := s.regs.transparencyPen.set 6 (v.extractLsb' 0 8) } } ∧
    exec (.wrbTransPen7 v) s = .next { s with regs := { s.regs with transparencyPen := s.regs.transparencyPen.set 7 (v.extractLsb' 0 8) } } ∧
    exec (.wrbTransMask4 v) s = .next { s with regs := { s.regs with transparencyMask := s.regs.transparencyMask.set 4 (v.extractLsb' 0 8) } } ∧
    exec (.wrbTransMask5 v) s = .next { s with regs := { s.regs with transparencyMask := s.regs.transparencyMask.set 5 (v.extractLsb' 0 8) } } ∧
    exec (.wrbTransMask6 v) s = .next { s with regs := { s.regs with transparencyMask := s.regs.transparencyMask.set 6 (v.extractLsb' 0 8) } } ∧
    exec (.wrbTransMask7 v) s = .next { s with regs := { s.regs with transparencyMask := s.regs.transparencyMask.set 7 (v.extractLsb' 0 8) } }

/-- When EIGHT_LAYER is false: every word on pair B decodes to the undefined-index row; apply on pair B answers the
state with one UNDEFINED_REGISTER record (B, latched index, combined value) and nothing else changed; the
meaning of every WRB row whose register LAYOUT_A does not reach answers such a record too (for the index see log
11), and a WRB row whose register LAYOUT_A does reach acts as on an eight-layer device
(PairBWritesWithEightLayers says how). -/
def Obligations.PairBWithoutEightLayersIsUndefined : Prop :=
  ∀ (s : State), s.config.eightLayer = false →
    (∀ w : BitVec 16, decodeWord s.config .b w =
      .wrUndefinedIndex .b (w.extractLsb' 8 6) (w.extractLsb' 14 2 ++ w.extractLsb' 0 8)) ∧
    (∀ d : Byte, exec (.app .b d) s = .next { s with
      diag := s.diag ++ [.undefinedRegister .b (s.latchB.extractLsb' 0 6) (s.latchB.extractLsb' 6 2 ++ d)] }) ∧
    (∀ (r : Reg) (v : BitVec 10) (i : Instr), Claims.ofPairB r → Claims.writeRow r v = some i →
      ((∀ k, s.config.reg .a k ≠ some r) → ∃ k, exec i s =
        .next { s with diag := s.diag ++ [.undefinedRegister .b k v] }) ∧
      ((∃ k, s.config.reg .a k = some r) → ∃ t, exec i s = .next t ∧
        exec i { s with config := Claims.eightLayers s.config } = .next { t with config := Claims.eightLayers s.config }))

/-- For every state, pair, index and value the undefined-index row answers the state with the record (pair, index,
value) appended to DIAG and nothing else changed. -/
def Obligations.UndefinedIndexOnlyRecords : Prop :=
  ∀ (s : State) (p : PortPair) (index : BitVec 6) (v : BitVec 10),
    exec (.wrUndefinedIndex p index v) s = .next { s with diag := s.diag ++ [.undefinedRegister p index v] }

/-- For every state, carry and code the unknown-start row answers the state with the record appended to DIAG and
nothing else changed: no register, no pixmap, no PENDING, no token. -/
def Obligations.UnknownStartOnlyRecords : Prop :=
  ∀ (s : State) (c : BitVec 2) (code : Byte),
    exec (.goUnknown c code) s = .next { s with diag := s.diag ++ [.unknownStart code] }

/-- For every state and byte, select on pair A answers the state with latch A set to the byte and nothing else
changed, no diagnostic whatever the index; select on pair B likewise sets latch B only, which for a device
without EIGHT_LAYER is decision D4 (log 16). -/
def Obligations.SelectSetsItsLatchOnly : Prop :=
  ∀ (s : State) (b : Byte),
    exec (.sel .a b) s = .next { s with latchA := b } ∧ exec (.sel .b b) s = .next { s with latchB := b }

/-- For every state, integers x, y and byte c, with X and Y the coordinates after the optional swap reduced modulo
512: if the clip test does not reject (X, Y), the byte at 262144*l + 512*Y + X becomes c for every layer l
selected by dest_layer_mask, and every other byte of memory keeps its value; if it rejects, every byte keeps its
value. No other part of the state changes. (The clip test itself is the statement ClipTestFollowsItsFormula.) -/
def Obligations.PlotStoresAtTheWrappedPixel : Prop :=
  ∀ (s : State) (x y : Int) (c : Byte) (X Y : Nat),
    (X : Int) = (if s.regs.flip.swapXY = true then y else x) % 512 →
    (Y : Int) = (if s.regs.flip.swapXY = true then x else y) % 512 →
    plot x y c s = { s with mem := (plot x y c s).mem } ∧
    (rejected s.config.clipForm s.regs.clip X Y = true → (plot x y c s).mem = s.mem) ∧
    (rejected s.config.clipForm s.regs.clip X Y = false →
      (∀ l : Layer, s.regs.destLayerMask.getLsbD l.val = true →
        (plot x y c s).mem.read (262144 * l.val + 512 * Y + X) = c) ∧
      (∀ a, (∀ l : Layer, s.regs.destLayerMask.getLsbD l.val = true → a ≠ 262144 * l.val + 512 * Y + X) →
        (plot x y c s).mem.read a = s.mem.read a))

/-- For every clip form, clip registers and wrapped coordinates: with inside-x meaning origin <= x <= origin +
extent (or <= extent alone in the EXTENT_ONLY form), plain comparisons, ends included, and inside-y likewise,
the pixel is rejected exactly when it is inside x and control bit 0 is clear, or outside x and bit 1 is clear,
or inside y and bit 2 is clear, or outside y and bit 3 is clear. So with control bits 3:0 at 1111 no pixel is
rejected, with bits 1:0 or bits 3:2 at 00 every pixel is, and a plot with bits 3:0 at 0000 leaves the state as
it was. -/
def Obligations.ClipTestFollowsItsFormula : Prop :=
  ∀ (form : ClipForm) (k : Clip) (x y : Nat),
    let ix : Prop := k.x ≤ x ∧ x ≤ (if form = .originPlusExtent then k.x + k.width else k.width)
    let iy : Prop := k.y ≤ y ∧ y ≤ (if form = .originPlusExtent then k.y + k.height else k.height)
    (rejected form k x y = true ↔
      (k.ctrl.getLsbD 0 = false ∧ ix) ∨ (k.ctrl.getLsbD 1 = false ∧ ¬ ix) ∨
      (k.ctrl.getLsbD 2 = false ∧ iy) ∨ (k.ctrl.getLsbD 3 = false ∧ ¬ iy)) ∧
    (k.ctrl.extractLsb' 0 4 = 15 → rejected form k x y = false) ∧
    (k.ctrl.extractLsb' 0 2 = 0 → rejected form k x y = true) ∧
    (k.ctrl.extractLsb' 2 2 = 0 → rejected form k x y = true) ∧
    (∀ (s : State) (i j : Int) (c : Byte), s.regs.clip.ctrl.extractLsb' 0 4 = 0 → plot i j c s = s)

/-- For every state: GO_FILL_ALL answers a next state with every byte of every layer that dest_layer_mask selects
equal to pen, every other byte of memory unchanged, one more pending token handed out, and no register, latch,
diagnostic, decoder or configuration change. Start code 0x01 on the default START index decodes to it. -/
def Obligations.FillAllFillsTheSelectedLayers : Prop :=
  ∀ (s : State) (c : BitVec 2), ∃ t, exec (.goFillAll c) s = .next t ∧ Claims.OnlyStores s t ∧ Claims.Started s t ∧
    (∀ (l : Layer) (a : Nat), s.regs.destLayerMask.getLsbD l.val = true → a < 262144 →
      t.mem.read (262144 * l.val + a) = s.regs.pen) ∧
    (∀ a, (∀ l : Layer, s.regs.destLayerMask.getLsbD l.val = true → ¬ (262144 * l.val ≤ a ∧ a < 262144 * l.val + 262144)) →
      t.mem.read a = s.mem.read a) ∧
    decodeWord Config.default .a (c ++ (0x12 : BitVec 6) ++ (0x01 : Byte)) = .goFillAll c

/-- For every state, with a0 = 512*(blit_y mod 512) + blit_x mod 512: GO_FILL_FROM_XY answers a next state with the
bytes at linear addresses a0 to 262143 of every selected layer equal to pen, every other byte unchanged,
whatever clip and swap say; one more token; nothing else changes. -/
def Obligations.FillFromXYFillsToTheBufferEnd : Prop :=
  ∀ (s : State) (c : BitVec 2) (a0 : Nat), (a0 : Int) = 512 * (s.regs.blitY % 512) + s.regs.blitX % 512 →
    ∃ t, exec (.goFillFromXY c) s = .next t ∧ Claims.OnlyStores s t ∧ Claims.Started s t ∧
    (∀ (l : Layer) (a : Nat), s.regs.destLayerMask.getLsbD l.val = true → a0 ≤ a → a < 262144 →
      t.mem.read (262144 * l.val + a) = s.regs.pen) ∧
    (∀ a, (∀ l : Layer, s.regs.destLayerMask.getLsbD l.val = true →
        ¬ (262144 * l.val + a0 ≤ a ∧ a < 262144 * l.val + 262144)) →
      t.mem.read a = s.mem.read a)

/-- For every state: GO_FILL_RECT answers a next state in which every address that a plot at (blit_x + dx, blit_y +
dy), dx = 0 to rect_width, dy = 0 to rect_height, stores to holds pen, and every other byte is unchanged; one
more token; nothing else changes (flips x and y have no effect). -/
def Obligations.FillRectPlotsTheBlock : Prop :=
  ∀ (s : State) (c : BitVec 2), ∃ t, exec (.goFillRect c) s = .next t ∧ Claims.OnlyStores s t ∧ Claims.Started s t ∧
    (∀ a dx dy : Nat, dx ≤ s.regs.rectWidth → dy ≤ s.regs.rectHeight →
      Hits s (s.regs.blitX + dx) (s.regs.blitY + dy) a → t.mem.read a = s.regs.pen) ∧
    (∀ a : Nat, (∀ dx dy : Nat, dx ≤ s.regs.rectWidth → dy ≤ s.regs.rectHeight →
      ¬ Hits s (s.regs.blitX + dx) (s.regs.blitY + dy) a) → t.mem.read a = s.mem.read a)

/-- For every state: GO_FILL_BAND answers a next state in which every byte of the rows (blit_y + k) mod 512, k = 0
to rect_height, of every selected layer is pen, and every other byte is unchanged, whatever clip and swap say;
one more token; nothing else changes. -/
def Obligations.FillBandFillsWholeRows : Prop :=
  ∀ (s : State) (c : BitVec 2), ∃ t, exec (.goFillBand c) s = .next t ∧ Claims.OnlyStores s t ∧ Claims.Started s t ∧
    (∀ (l : Layer) (k r x : Nat), s.regs.destLayerMask.getLsbD l.val = true → k ≤ s.regs.rectHeight →
      (r : Int) = (s.regs.blitY + k) % 512 → x < 512 →
      t.mem.read (262144 * l.val + 512 * r + x) = s.regs.pen) ∧
    (∀ a : Nat, (∀ (l : Layer) (k r x : Nat), s.regs.destLayerMask.getLsbD l.val = true → k ≤ s.regs.rectHeight →
      (r : Int) = (s.regs.blitY + k) % 512 → x < 512 → a ≠ 262144 * l.val + 512 * r + x) →
      t.mem.read a = s.mem.read a)

/-- For every state: GO_HLINE answers a next state in which blit_x is larger by line_length + 1 (not reduced,
whether or not pixels were clipped), every address that a plot at (blit_x + k, blit_y), k = 0 to line_length,
stores to holds pen, every other byte and every other register is unchanged; one more token; nothing else
changes. -/
def Obligations.HlineDrawsAndAdvancesBlitX : Prop :=
  ∀ (s : State) (c : BitVec 2), ∃ t, exec (.goHline c) s = .next t ∧ Claims.Started s t ∧
    t = { s with
      regs := { s.regs with blitX := s.regs.blitX + s.regs.lineLength + 1 }
      mem := t.mem, pending := t.pending, outputs := t.outputs } ∧
    (∀ a k : Nat, k ≤ s.regs.lineLength → Hits s (s.regs.blitX + k) s.regs.blitY a → t.mem.read a = s.regs.pen) ∧
    (∀ a : Nat, (∀ k : Nat, k ≤ s.regs.lineLength → ¬ Hits s (s.regs.blitX + k) s.regs.blitY a) →
      t.mem.read a = s.mem.read a)

/-- For every state: GO_VLINE answers a next state in which blit_y is larger by line_length + 1, every address that
a plot at (blit_x, blit_y + k), k = 0 to line_length, stores to holds pen, every other byte and every other
register is unchanged; one more token; nothing else changes. -/
def Obligations.VlineDrawsAndAdvancesBlitY : Prop :=
  ∀ (s : State) (c : BitVec 2), ∃ t, exec (.goVline c) s = .next t ∧ Claims.Started s t ∧
    t = { s with
      regs := { s.regs with blitY := s.regs.blitY + s.regs.lineLength + 1 }
      mem := t.mem, pending := t.pending, outputs := t.outputs } ∧
    (∀ a k : Nat, k ≤ s.regs.lineLength → Hits s s.regs.blitX (s.regs.blitY + k) a → t.mem.read a = s.regs.pen) ∧
    (∀ a : Nat, (∀ k : Nat, k ≤ s.regs.lineLength → ¬ Hits s s.regs.blitX (s.regs.blitY + k) a) →
      t.mem.read a = s.mem.read a)

/-- For every state each of the six direct start operations hands the host exactly one token, of the family DIRECT
with its delay. (A ROM draw hands out its ROM token when it ends: StopEndsTheInvocation.) -/
def Obligations.StartTokenFamilies : Prop :=
  ∀ (s : State) (c : BitVec 2) (i : Instr),
    i ∈ [.goFillAll c, .goFillFromXY c, .goFillRect c, .goFillBand c, .goHline c, .goVline c] →
    ∃ t, exec i s = .next t ∧ t.outputs = s.outputs ++ [.token .direct s.config.delayDirect]

/-- For every state GO_ROM_DRAW answers the state whose decoder stands in front of the header at bit (blit_address *
U) mod (8 * L), no overrun logged; nothing else changes yet. R80 and R160 make the draw one atomic entry; that
the header and the commands run in the steps after this one is log 4, that the step which ends the invocation
hands out the token is log 5. -/
def Obligations.RomDrawStartsAtTheReducedAddress : Prop :=
  ∀ (s : State) (c : BitVec 2), exec (.goRomDraw c) s = .next { s with
    decoder := .header {
      cur := (s.regs.blitAddress.toNat * Claims.unit s.config) % Claims.romEnd s.config, overrunLogged := false } }

/-- In front of a header, HDR with nibbles hp and ha answers the state whose decoder runs with pen_size = min(hp +
1, 4), arg_size = min(ha + 1, 8), x = x0 = blit_x, y = blit_y, directions -1 where the flip flag is set and +1
where it is clear; DIAG gains PEN_SIZE_RANGE and then ARG_SIZE_RANGE for a size above its range; nothing else
changes. That the item is one step, with the working values held in the state before and after it, is log 4. -/
def Obligations.HeaderSetsSizesAndPosition : Prop :=
  ∀ (s : State) (c : BitCursor) (hp ha : BitVec 4), s.decoder = .header c →
    exec (.hdr hp ha) s = .next { s with
      diag := s.diag ++ Claims.penRange hp.toNat ++ Claims.argRange ha.toNat
      decoder := .running {
        cursor := c, penSize := min (hp.toNat + 1) 4, argSize := min (ha.toNat + 1) 8
        x := s.regs.blitX, y := s.regs.blitY, x0 := s.regs.blitX
        xdir := if s.regs.flip.x = true then .dec else .inc
        ydir := if s.regs.flip.y = true then .dec else .inc } }

/-- In a running invocation NEXT answers the state with y changed by +1 or -1 as the y direction says and x back at
x0; nothing else changes. That the item is one step, with the working values held in the state before and after
it, is log 4. -/
def Obligations.NextLineStepsTheRow : Prop :=
  ∀ (s : State) (w : Working), s.decoder = .running w →
    exec .next s = .next { s with decoder := .running { w with y := w.y + Claims.sign w.ydir, x := w.x0 } }

/-- In a running invocation DRAW with N and p answers a next state in which every address that a plot at (x +
k*xdir, y), k = 0 to N, stores to holds the merged pen, every other byte is unchanged, and x has advanced by N +
1 in the run direction; no register, diagnostic, token or anything else changes. (Merge is the statement
MergeFollowsPenMode.) That the item is one step, with the working values held in the state before and after it,
is log 4. -/
def Obligations.DrawRunPlotsOnePen : Prop :=
  ∀ (s : State) (w : Working) (n : Nat) (p : Byte), s.decoder = .running w →
    ∃ t, exec (.draw n p) s = .next t ∧
    t = { s with mem := t.mem, decoder := .running { w with x := w.x + Claims.sign w.xdir * (n + 1) } } ∧
    (∀ a k : Nat, k ≤ n → Hits s (w.x + Claims.sign w.xdir * k) w.y a → t.mem.read a = merge s.regs p) ∧
    (∀ a : Nat, (∀ k : Nat, k ≤ n → ¬ Hits s (w.x + Claims.sign w.xdir * k) w.y a) → t.mem.read a = s.mem.read a)

/-- In a running invocation COPY with its N + 1 pens answers a next state in which an address whose last hit is
pixel k of the run holds the merge of pen k, an address that no pixel hits is unchanged, and x has advanced by N
+ 1 in the run direction; nothing else changes. That the item is one step, with the working values held in the
state before and after it, is log 4; that its pens are read before the first plot is log 22. -/
def Obligations.CopyRunPlotsEachPen : Prop :=
  ∀ (s : State) (w : Working) (p0 : Byte) (ps : List Byte), s.decoder = .running w →
    ∃ t, exec (.copy p0 ps) s = .next t ∧
    t = { s with mem := t.mem, decoder := .running { w with x := w.x + Claims.sign w.xdir * (ps.length + 1) } } ∧
    (∀ (a k : Nat) (p : Byte), (p0 :: ps)[k]? = some p → Hits s (w.x + Claims.sign w.xdir * k) w.y a →
      (∀ j : Nat, k < j → j ≤ ps.length → ¬ Hits s (w.x + Claims.sign w.xdir * j) w.y a) →
      t.mem.read a = merge s.regs p) ∧
    (∀ a : Nat, (∀ k : Nat, k ≤ ps.length → ¬ Hits s (w.x + Claims.sign w.xdir * k) w.y a) →
      t.mem.read a = s.mem.read a)

/-- In a running invocation SKIP answers the state with x advanced by N + 1 in the run direction; no byte of memory
and nothing else changes. That the item is one step, with the working values held in the state before and after
it, is log 4. -/
def Obligations.SkipAdvancesX : Prop :=
  ∀ (s : State) (w : Working) (n : Nat), s.decoder = .running w →
    exec (.skip n) s = .next { s with decoder := .running { w with x := w.x + Claims.sign w.xdir * (n + 1) } }

/-- In a running invocation ARGSZ sets arg_size to min(f + 1, 8) and records ARG_SIZE_RANGE with the unclamped size
when it is above 8; PENSZ sets pen_size to min(f + 1, 4) and records PEN_SIZE_RANGE when it is above 4; nothing
else changes. That the item is one step, with the working values held in the state before and after it, is log
4. -/
def Obligations.SizeChangesClampAndRecord : Prop :=
  ∀ (s : State) (w : Working), s.decoder = .running w →
    (∀ f : BitVec 4, exec (.argsz f) s = .next { s with
      diag := s.diag ++ Claims.argRange f.toNat
      decoder := .running { w with argSize := min (f.toNat + 1) 8 } }) ∧
    (∀ f : BitVec 3, exec (.pensz f) s = .next { s with
      diag := s.diag ++ Claims.penRange f.toNat
      decoder := .running { w with penSize := min (f.toNat + 1) 4 } })

/-- In a running invocation STOP answers the state with blit_address = ceil(cur / U) mod 2^24 for the cursor after
the opcode, no invocation running, PENDING one larger and one token of the family ROM handed out; no byte of
memory, no diagnostic and nothing else changes. That the item is a step of its own is log 4, that this step
hands out the token is log 5. -/
def Obligations.StopEndsTheInvocation : Prop :=
  ∀ (s : State) (w : Working), s.decoder = .running w →
    exec .stop s = .next { s with
      regs := { s.regs with
        blitAddress := BitVec.ofNat 24 ((w.cursor.cur + Claims.unit s.config - 1) / Claims.unit s.config) }
      decoder := .idle
      pending := s.pending + 1
      outputs := s.outputs ++ [.token .rom s.config.delayRom] }

/-- In a running invocation UNK with raw opcode op answers what STOP answers on the state whose DIAG has gained
UNKNOWN_OPCODE(op, cursor after the opcode), and that is a next state. That the item is a step of its own is log
4, that this step hands out the token is log 5. -/
def Obligations.UnknownRecordsThenStops : Prop :=
  ∀ (s : State) (w : Working) (op : BitVec 3), s.decoder = .running w →
    exec (.unk op) s = exec .stop { s with diag := s.diag ++ [.unknownOpcode op w.cursor.cur] } ∧
    ∃ t, exec (.unk op) s = .next t ∧ t.decoder = .idle ∧ t.mem = s.mem ∧
      t.diag = s.diag ++ [.unknownOpcode op w.cursor.cur]

/-- With pen_mode set the merged pen is the register pen; with it clear its low nibble is the stream pen's and its
high nibble the register pen's. -/
def Obligations.MergeFollowsPenMode : Prop :=
  ∀ (r : RegisterFile) (p : Byte),
    (r.penMode = true → merge r p = r.pen) ∧
    (r.penMode = false → merge r p = r.pen.extractLsb' 4 4 ++ p.extractLsb' 0 4)

/-- For every ROM, width n and cursor with the field inside the ROM: the fetched value is below 2^n, its bit n-1-i
is bit 7 - (b mod 8) of byte b div 8 for b = cursor + i, the cursor moves by n, and nothing is raised or logged. -/
def Obligations.FetchReadsTheRomMostSignificantFirst : Prop :=
  ∀ (rom : List Byte) (n : Nat) (q : BitPort), q.cursor.cur + n ≤ 8 * rom.length →
    (fetchField rom n q).1 < 2 ^ n ∧
    (∀ i : Nat, i < n → (fetchField rom n q).1.testBit (n - 1 - i) =
      (rom.getD ((q.cursor.cur + i) / 8) 0).getLsbD (7 - (q.cursor.cur + i) % 8)) ∧
    (fetchField rom n q).2 = { q with cursor := { q.cursor with cur := q.cursor.cur + n } }

/-- For every ROM, width and cursor: every bit of the field whose address is at or past 8*L is 1, every bit below it
is the bit of the ROM; the cursor moves by the width; a record with the first overrunning address is raised
exactly when the field reaches past the end and none was logged before in this invocation, and from then on it
is logged. Which bit of the field and of the byte a bit address names is decision D13 (log 16). -/
def Obligations.OverrunReadsOnesAndIsRecordedOnce : Prop :=
  ∀ (rom : List Byte) (n : Nat) (q : BitPort),
    (∀ i : Nat, i < n → 8 * rom.length ≤ q.cursor.cur + i → (fetchField rom n q).1.testBit (n - 1 - i) = true) ∧
    (∀ i : Nat, i < n → q.cursor.cur + i < 8 * rom.length → (fetchField rom n q).1.testBit (n - 1 - i) =
      (rom.getD ((q.cursor.cur + i) / 8) 0).getLsbD (7 - (q.cursor.cur + i) % 8)) ∧
    (fetchField rom n q).2.cursor.cur = q.cursor.cur + n ∧
    (fetchField rom n q).2.cursor.overrunLogged =
      (q.cursor.overrunLogged || decide (max q.cursor.cur (8 * rom.length) < q.cursor.cur + n)) ∧
    (fetchField rom n q).2.raised = q.raised ++
      (if q.cursor.overrunLogged = false ∧ max q.cursor.cur (8 * rom.length) < q.cursor.cur + n
       then [max q.cursor.cur (8 * rom.length)] else [])

/-- For every state with an invocation running (in front of the header or of a command) and a command table whose
opcode 7 is Stop or Unknown: within ceil(8L / 3) + 2 steps the run reaches a state with no invocation, exactly
one more token pending, and the host's entries, latches and configuration as they were. (The spec derives
termination in R215 and, counted in commands, the bound in R354; that a step is one header or one command is log
4.) -/
def Obligations.InvocationsEndWhenOpcodeSevenEnds : Prop :=
  ∀ (s : State), s.decoder ≠ .idle →
    (s.config.operation 7 = .stop ∨ s.config.operation 7 = .unknown) →
    ∃ k t, k ≤ (Claims.romEnd s.config + 2) / 3 + 2 ∧ Host.Core.run Sys2Proof.core k s = .next t ∧
      t.decoder = .idle ∧ t.pending = s.pending + 1 ∧ t.inbox = s.inbox ∧ t.latchA = s.latchA ∧ t.latchB = s.latchB ∧
      t.config = s.config

/-- For every state whose invocation stands in front of a command at or past the end of the ROM, with a command
table whose opcode 7 is neither Stop nor Unknown: after any number of steps an invocation is still running, no
token was handed out and no host entry was served. (The spec derives this in R354; that divergence is a run
without end is log 4.) -/
def Obligations.OverrunDivergesWhenOpcodeSevenGoesOn : Prop :=
  ∀ (s : State) (w : Working), s.decoder = .running w → Claims.romEnd s.config ≤ w.cursor.cur →
    s.config.operation 7 ≠ .stop → s.config.operation 7 ≠ .unknown →
    ∀ k, ∃ t v, Host.Core.run Sys2Proof.core k s = .next t ∧ t.decoder = .running v ∧
      t.pending = s.pending ∧ t.inbox = s.inbox ∧ t.outputs = s.outputs

/-- For every state with an invocation running a step answers a next state, with configuration, latches and the
host's entries unchanged, every register but blit_address unchanged, DIAG only extended; and as long as the
invocation goes on no register, PENDING or output changes either. That an invocation is several steps, one for
each item, is log 4; that PENDING and the outputs stay until the ending step, which hands out the token, is log
5. What the ending step does to PENDING and the outputs this statement leaves open: StopEndsTheInvocation and
UnknownRecordsThenStops give it. -/
def Obligations.InvocationStepsWriteOnlyTheirOwn : Prop :=
  ∀ (s : State), s.decoder ≠ .idle → ∃ t, step s = .next t ∧
    t.config = s.config ∧ t.latchA = s.latchA ∧ t.latchB = s.latchB ∧ t.inbox = s.inbox ∧
    t.regs = { s.regs with blitAddress := t.regs.blitAddress } ∧ s.diag <+: t.diag ∧
    (t.decoder ≠ .idle → t.regs = s.regs ∧ t.pending = s.pending ∧ t.outputs = s.outputs)

/-- For every state in front of a header inside the ROM, if the stream there is a header byte followed by an opcode
that the command table maps to Stop: two steps answer the state with blit_address = ceil((start + 11) / U), no
invocation, one ROM token, the header's range records, and nothing else changed, in particular no byte of
memory. R216 derives what may change; that a header and a Stop are one step each is log 4, that the ending step
hands out the token is log 5, its delay family is decision D6, the bit order D13, the rounded-up address D17 and
conflict C3. A Stop read past the end of the ROM is not among the cases here: the statements
StepRunsTheEncodedItem, HeaderSetsSizesAndPosition and StopEndsTheInvocation together cover it. -/
def Obligations.HeaderThenStopOnlyMovesTheAddress : Prop :=
  ∀ (s : State) (c : BitCursor) (hp ha : BitVec 4) (op : BitVec 3), s.decoder = .header c →
    c.cur + 11 ≤ Claims.romEnd s.config → s.config.operation op = .stop →
    streamAt s.config.rom c.cur (fieldBits 4 hp.toNat ++ fieldBits 4 ha.toNat ++ fieldBits 3 op.toNat) = true →
    Host.Core.run Sys2Proof.core 2 s = .next { s with
      regs := { s.regs with
        blitAddress := BitVec.ofNat 24 ((c.cur + 11 + Claims.unit s.config - 1) / Claims.unit s.config) }
      decoder := .idle
      diag := s.diag ++ Claims.penRange hp.toNat ++ Claims.argRange ha.toNat
      pending := s.pending + 1
      outputs := s.outputs ++ [.token .rom s.config.delayRom] }

/-- For every state and frame coordinates, with the layers in paint order (priority 24 to 31 as row 0, the second
group over the first, and only with EIGHT_LAYER): at a pixel whose last opaque enabled layer is l, each of the
16 output bits is the source pixel's bit where palette_mask of l has a 1 and the bit of palette_base of l
elsewhere; where no layer is opaque, the pixel is bg_color zero-extended. -/
def Obligations.FramePixelIsTheTopmostOpaqueLayer : Prop :=
  ∀ (s : State) (x y : Nat),
    (∀ (pre post : List (Layer × Byte)) (l : Layer) (en : Byte),
      Claims.paintOrder s = pre ++ (l, en) :: post → Claims.Opaque s x y (l, en) →
      (∀ q ∈ post, ¬ Claims.Opaque s x y q) →
      ∀ i : Nat, i < 16 → (framePixel s x y).getLsbD i =
        (if (s.regs.paletteMask.get l).getLsbD i = true then (Claims.source s l x y).getLsbD i
         else (s.regs.paletteBase.get l).getLsbD i)) ∧
    ((∀ q ∈ Claims.paintOrder s, ¬ Claims.Opaque s x y q) → framePixel s x y = s.regs.bgColor.zeroExtend 16)

/-- When the host asks for a frame, the step answers the state with that frame handed out, one PRIORITY_RANGE record
for each group in use whose stored priority is 24 or more (group 0 first), and nothing else changed. -/
def Obligations.CompositeHandsOutTheFrameOnly : Prop :=
  ∀ (s : State) (es : List HostEntry), s.decoder = .idle → s.inbox = .compositeFrame :: es →
    ∃ F : List (List FramePixel), step s = .next { s with
      inbox := es
      diag := s.diag ++ (if s.regs.priorityIndex.toNat ≥ 24 then [.priorityRange 0 s.regs.priorityIndex] else []) ++
        (if s.config.eightLayer = true ∧ s.regs.priorityIndex2.toNat ≥ 24
         then [.priorityRange 1 s.regs.priorityIndex2] else [])
      outputs := s.outputs ++ [.frame F] } ∧
    F.length = s.config.visHeight ∧ (∀ row ∈ F, row.length = s.config.visWidth) ∧
    (∀ x y : Nat, x < s.config.visWidth → y < s.config.visHeight →
      (F.getD y []).getD x 0 = framePixel s x y)

/-- For every configuration and frame coordinates, the frame pixel of a freshly reset device is 0: every layer is
transparent everywhere and the background is 0. -/
def Obligations.FreshDeviceShowsZero : Prop :=
  ∀ (cfg : Config) (x y : Nat), framePixel (State.fresh cfg) x y = 0

/-- When the host redeems a token: if PENDING is above 0 the step answers the state with PENDING one smaller and one
blit-complete pulse handed out, nothing else changed; if PENDING is 0 the step is refused, which is how log 14
(DEDUCED) reads that the entry is not enabled. -/
def Obligations.CompleteRedeemsOneToken : Prop :=
  ∀ (s : State) (es : List HostEntry), s.decoder = .idle → s.inbox = .complete :: es →
    (0 < s.pending → step s = .next { s with
      inbox := es, pending := s.pending - 1, outputs := s.outputs ++ [.blitComplete] }) ∧
    (s.pending = 0 → step s = .refused .completeNotEnabled)

/-- read_status hands out 1 when a token is pending and 0 otherwise; the getter of each of the 32 fields (every
register, every layer of every per-layer bank, both latches) hands out the value of that field: bit fields as
unsigned numbers, flags as 0 or 1, int fields unreduced; nothing of the device changes. That the two latches
have getters follows R66 against R64 (log 25). -/
def Obligations.StatusAndGettersChangeNothing : Prop :=
  ∀ (s : State) (es : List HostEntry), s.decoder = .idle →
    (s.inbox = .readStatus :: es → step s = .next { s with
      inbox := es, outputs := s.outputs ++ [.status (if 0 < s.pending then 1 else 0)] }) ∧
    (∀ f, s.inbox = .get f :: es → step s = .next { s with
      inbox := es, outputs := s.outputs ++ [.value f (Claims.getterValue s f)] })

/-- When the host resets the device the step answers a next state in which every pixmap byte is 0, the named
registers have the values of the reset table (0 but for pen_mask 0xFF, clip.ctrl 0x0F and both layer enables
0x0F), the per-layer banks are 0, both latches are 0, PENDING is 0, DIAG is empty and no invocation runs;
configuration, the host's entries and the outputs stay. -/
def Obligations.ResetLeavesTheResetValues : Prop :=
  ∀ (s : State) (es : List HostEntry), s.decoder = .idle → s.inbox = .reset :: es →
    ∃ t, step s = .next t ∧ (∀ a, t.mem.read a = 0) ∧ t.latchA = 0 ∧ t.latchB = 0 ∧ t.pending = 0 ∧ t.diag = [] ∧
    t.decoder = .idle ∧ t.config = s.config ∧ t.inbox = es ∧ t.outputs = s.outputs ∧
    t.regs.destLayerMask = 0 ∧ t.regs.blitX = 0 ∧ t.regs.blitY = 0 ∧ t.regs.blitAddress = 0 ∧ t.regs.pen = 0 ∧
    t.regs.penMode = false ∧ t.regs.penMask = 0xFF ∧ t.regs.rectWidth = 0 ∧ t.regs.rectHeight = 0 ∧
    t.regs.lineLength = 0 ∧ t.regs.flip = { x := false, y := false, swapXY := false } ∧
    t.regs.clip = { x := 0, y := 0, width := 0, height := 0, ctrl := 0x0F } ∧
    t.regs.priorityIndex = 0 ∧ t.regs.priorityIndex2 = 0 ∧
    t.regs.layerEnableMask = 0x0F ∧ t.regs.layerEnableMask2 = 0x0F ∧ t.regs.bgColor = 0 ∧ t.regs.bgColor2 = 0 ∧
    (∀ l : Layer, t.regs.scrollX.get l = 0 ∧ t.regs.scrollY.get l = 0 ∧ t.regs.paletteBase.get l = 0 ∧
      t.regs.paletteMask.get l = 0 ∧ t.regs.transparencyPen.get l = 0 ∧ t.regs.transparencyMask.get l = 0)

/-- Construction answers the freshly reset device when the ROM is not empty and a whole number of fetch units, PERM
has 24 distinct permutations and the frame is not empty; otherwise it is refused. -/
def Obligations.ConstructionRefusesIllegalConfigurations : Prop :=
  ∀ (cfg : Config),
    let good : Prop := 0 < cfg.rom.length ∧ (8 * cfg.rom.length) % Claims.unit cfg = 0 ∧
      (∀ o ∈ cfg.perm.toList, [o.bottom, o.second, o.third, o.top].Nodup) ∧ cfg.perm.toList.Nodup ∧
      0 < cfg.visWidth ∧ 0 < cfg.visHeight
    (good → State.construct cfg = .next (State.fresh cfg)) ∧
    (¬ good → State.construct cfg = .refused .illegalConfiguration)

/-- From every state that meets the invariant (pixmap memory in canonical form and inside the eight layers;
registers in the ranges the spec gives; the cursor in front of a header a multiple of the fetch unit inside the
ROM; operand sizes 1 to 4 and 1 to 8 and the overrun flag true exactly past the end; a legal configuration; no
LINE_LENGTH_RANGE record), a step that answers a next state answers one that meets it. -/
def Obligations.InvariantIsKeptByEveryStep : Prop :=
  ∀ (s t : State), s.Inv → step s = .next t → t.Inv

/-- A freshly reset device of every legal configuration meets the invariant, and so does State.reset (whose
configuration is the default one of log 1). -/
def Obligations.InvariantHoldsAfterReset : Prop :=
  (∀ cfg : Config, cfg.legal = true → (State.fresh cfg).Inv) ∧ State.reset.Inv

/-- For every state: the step never answers a fault; it answers a refusal only when no invocation runs, the host's
next entry is complete() and PENDING is 0. Hence with that entry excepted every step completes. That the model
has a fault at all is log 13; that a complete() that is not enabled is refused is log 14. -/
def Obligations.ConstructedDeviceNeverFails : Prop :=
  ∀ (s : State), (∀ r, step s ≠ .fault r) ∧
    (∀ r, step s = .refused r → r = .completeNotEnabled ∧ Claims.Serves s .complete ∧ s.pending = 0) ∧
    (¬ (Claims.Serves s .complete ∧ s.pending = 0) → ∃ t, step s = .next t)

/-- From every state, a step that answers a next state and does not serve a reset leaves DIAG an extension of what
it was. -/
def Obligations.DiagnosticsOnlyGrow : Prop :=
  ∀ (s t : State), step s = .next t → ¬ Claims.Serves s .reset → s.diag <+: t.diag

/-- From every state, a step that answers a next state and does not serve a reset changes PENDING by the number of
tokens it hands out minus the number of blit-complete pulses it gives. -/
def Obligations.PendingCountsOutstandingTokens : Prop :=
  ∀ (s t : State), step s = .next t → ¬ Claims.Serves s .reset →
    t.pending + pulsesIn t.outputs + tokensIn s.outputs = s.pending + pulsesIn s.outputs + tokensIn t.outputs

/-- From every state, a step that answers a next state leaves ROM, fetch unit, tables and all other configuration
parameters as they were. -/
def Obligations.ConfigurationNeverChanges : Prop :=
  ∀ (s t : State), step s = .next t → t.config = s.config

/-- The pair of PEN_MASK (default index 0x09) decodes to the write, which stores bits 7:0. For every state and every
other value of pen_mask, unless the step serves the getter of pen_mask, the step's outcome is the same up to
pen_mask itself: same registers, pixmaps, records, outputs, decoder. -/
def Obligations.PenMaskIsNeverRead : Prop :=
  (∀ (s : State) (v : BitVec 10), decodeWord Config.default .a (Claims.pair 0x09 v) = .wrPenMask v ∧
    exec (.wrPenMask v) s = .next { s with regs := { s.regs with penMask := v.extractLsb' 0 8 } }) ∧
  ∀ (s : State) (b : Byte), ¬ Claims.Serves s (.get .penMask) →
    Claims.hidePenMask (step (Claims.withPenMask s b)) = Claims.hidePenMask (step s)
end

