-- ==== Sys2Proof/Laws/Fetch.lean ====
section
/-! SUPPORT. What the fetches of the bitstream do, each said once: how far the cursor moves, how large a field can be,
when the overrun is logged, and that a field standing in the stream is the field that is fetched. -/

namespace Sys2Proof

@[simp] theorem BitCursor.port_cursor (c : BitCursor) : c.port.cursor = c := rfl
@[simp] theorem BitCursor.port_raised (c : BitCursor) : c.port.raised = [] := rfl

/-- A bit fetch answers the bit at the cursor (R202). -/
@[simp] theorem fetchBit_value (rom : List Byte) (p : BitPort) : (fetchBit rom p).1 = romBit rom p.cursor.cur := by
  unfold fetchBit; dsimp only; split_ifs <;> rfl

/-- A bit fetch moves the cursor by 1 (R55, R202). -/
@[simp] theorem fetchBit_cur (rom : List Byte) (p : BitPort) :
    (fetchBit rom p).2.cursor.cur = p.cursor.cur + 1 := by
  unfold fetchBit; dsimp only; split_ifs <;> rfl

/-- Past the end of the ROM a bit reads 1 (R75). -/
theorem romBit_past_end {rom : List Byte} {b : Nat} (h : rom.length ≤ b / 8) : romBit rom b = true := by
  unfold romBit
  rw [List.getElem?_eq_none_iff.2 h]

theorem fetchFrom_cur (rom : List Byte) (n v : Nat) (p : BitPort) :
    (fetchFrom rom n v p).2.cursor.cur = p.cursor.cur + n := by
  induction n generalizing v p with
  | zero => rfl
  | succ n ih => rw [fetchFrom, ih, fetchBit_cur]; omega

/-- A field fetch moves the cursor by the width of the field (R74). -/
@[simp] theorem fetchField_cur (rom : List Byte) (n : Nat) (p : BitPort) :
    (fetchField rom n p).2.cursor.cur = p.cursor.cur + n := fetchFrom_cur rom n 0 p

theorem fetchFrom_lt (rom : List Byte) (n v : Nat) (p : BitPort) : (fetchFrom rom n v p).1 < (v + 1) * 2 ^ n := by
  induction n generalizing v p with
  | zero => simp [fetchFrom]
  | succ n ih =>
    rw [fetchFrom]
    refine lt_of_lt_of_le (ih _ _) ?_
    have hb : (fetchBit rom p).1.toNat ≤ 1 := Bool.toNat_le _
    rw [pow_succ, show (v + 1) * (2 ^ n * 2) = (2 * v + 2) * 2 ^ n by ring]
    exact Nat.mul_le_mul_right _ (by omega)

/-- A field of `n` bits is below `2^n` (R105). -/
theorem fetchField_lt (rom : List Byte) (n : Nat) (p : BitPort) : (fetchField rom n p).1 < 2 ^ n := by
  simpa [fetchField] using fetchFrom_lt rom n 0 p

@[simp] theorem fetchFields_length (rom : List Byte) (n count : Nat) (p : BitPort) :
    (fetchFields rom n count p).1.length = count := by
  induction count generalizing p with
  | zero => rfl
  | succ k ih => simp [fetchFields, ih]

@[simp] theorem fetchFields_cur (rom : List Byte) (n count : Nat) (p : BitPort) :
    (fetchFields rom n count p).2.cursor.cur = p.cursor.cur + count * n := by
  induction count generalizing p with
  | zero => simp [fetchFields]
  | succ k ih => simp only [fetchFields, ih, fetchField_cur]; ring

/-- The overrun is logged exactly when a bit past the end has been fetched, if it was so before (R202). -/
def BitPort.Faithful (rom : List Byte) (p : BitPort) : Prop :=
  p.cursor.overrunLogged = decide (8 * rom.length < p.cursor.cur)

theorem fetchBit_faithful {rom : List Byte} {p : BitPort} (h : p.Faithful rom) : (fetchBit rom p).2.Faithful rom := by
  unfold BitPort.Faithful at *
  unfold fetchBit
  dsimp only
  split_ifs with hlt
  · rw [h, Bool.eq_iff_iff]; simp; omega
  all_goals simp; omega

theorem fetchFrom_faithful {rom : List Byte} {p : BitPort} (n v : Nat) (h : p.Faithful rom) :
    (fetchFrom rom n v p).2.Faithful rom := by
  induction n generalizing v p with
  | zero => exact h
  | succ n ih => exact ih _ (fetchBit_faithful h)

theorem fetchField_faithful {rom : List Byte} {p : BitPort} (n : Nat) (h : p.Faithful rom) :
    (fetchField rom n p).2.Faithful rom := fetchFrom_faithful n 0 h

theorem fetchFields_faithful {rom : List Byte} {p : BitPort} (n count : Nat) (h : p.Faithful rom) :
    (fetchFields rom n count p).2.Faithful rom := by
  induction count generalizing p with
  | zero => exact h
  | succ k ih => exact ih (fetchField_faithful n h)

theorem streamAt_append (rom : List Byte) (cur : Nat) (xs ys : List Bool) :
    streamAt rom cur (xs ++ ys) = (streamAt rom cur xs && streamAt rom (cur + xs.length) ys) := by
  induction xs generalizing cur with
  | nil => simp [streamAt]
  | cons b xs ih =>
    simp only [List.cons_append, streamAt, ih, List.length_cons, Bool.and_assoc]
    rw [show cur + 1 + xs.length = cur + (xs.length + 1) by omega]

@[simp] theorem fieldBits_length (n v : Nat) : (fieldBits n v).length = n := by
  induction n with
  | zero => rfl
  | succ n ih => simp [fieldBits, ih]

theorem fetchFrom_of_stream (rom : List Byte) (n v w : Nat) (p : BitPort)
    (h : streamAt rom p.cursor.cur (fieldBits n v) = true) :
    (fetchFrom rom n w p).1 = w * 2 ^ n + v % 2 ^ n := by
  induction n generalizing w p with
  | zero => simp [fetchFrom, Nat.mod_one]
  | succ n ih =>
    simp only [fieldBits, streamAt, Bool.and_eq_true, beq_iff_eq] at h
    rw [fetchFrom, ih _ _ (by rw [fetchBit_cur]; exact h.2), fetchBit_value, h.1]
    have hv : v % 2 ^ (n + 1) = 2 ^ n * (v.testBit n).toNat + v % 2 ^ n := by
      rw [Nat.mod_pow_succ, Nat.toNat_testBit]; ring
    rw [hv, pow_succ]; ring

/-- A field that stands in the stream at the cursor is the field that is fetched (R74). -/
theorem fetchField_of_stream {rom : List Byte} {n v : Nat} {p : BitPort} (hv : v < 2 ^ n)
    (h : streamAt rom p.cursor.cur (fieldBits n v) = true) : (fetchField rom n p).1 = v := by
  rw [fetchField, fetchFrom_of_stream rom n v 0 p h, Nat.mod_eq_of_lt hv]; omega

end Sys2Proof
end

