-- ==== Sys2Proof/Laws/Memory.lean ====
section
/-! SUPPORT. What the memory operations do, each said once: a read after a write and after a fill, and that every
operation keeps the canonical form. The read laws need no canonical form. -/

namespace Sys2Proof.Machine

/-! ## Reads -/

@[simp] theorem Memory.read_nil (a : Nat) : Memory.read [] a = Memory.blank := rfl

theorem Memory.read_cons (c : Host.Cell) (m : Memory) (a : Nat) :
    Memory.read (c :: m) a = if c.1 = a then c.2 else Memory.read m a := rfl

theorem Memory.read_insert (m : Memory) (a : Nat) (v : Byte) (b : Nat) :
    (Memory.insert m a v).read b = if b = a then v else m.read b := by
  induction m with
  | nil => simp [Memory.insert, Memory.read_cons, eq_comm]
  | cons c m ih =>
    unfold Memory.insert
    split_ifs with h1 h2 h3 h4
    all_goals simp only [Memory.read_cons, ih]
    all_goals split_ifs <;> first | rfl | omega

theorem Memory.read_filter_of_mem (m : Memory) (p : Nat → Bool) (b : Nat) (hb : p b = true) :
    Memory.read (m.filter (fun c => p c.1)) b = m.read b := by
  induction m with
  | nil => rfl
  | cons c m ih =>
    by_cases hc : p c.1 = true
    · simp [hc, Memory.read_cons, ih]
    · have hne : c.1 ≠ b := fun h => hc (h ▸ hb)
      simp [hc, Memory.read_cons, ih, hne]

theorem Memory.read_filter_of_not (m : Memory) (p : Nat → Bool) (b : Nat) (hb : p b = false) :
    Memory.read (m.filter (fun c => p c.1)) b = Memory.blank := by
  induction m with
  | nil => rfl
  | cons c m ih =>
    by_cases hc : p c.1 = true
    · have hne : c.1 ≠ b := fun h => by simp [← h, hc] at hb
      simp [hc, Memory.read_cons, ih, hne]
    · simp [hc, ih]

theorem Memory.read_erase (m : Memory) (a b : Nat) :
    (Memory.erase m a).read b = if b = a then Memory.blank else m.read b := by
  by_cases h : b = a
  · simpa [Memory.erase, h] using Memory.read_filter_of_not m (fun z => decide (z ≠ a)) a (by simp)
  · simpa [Memory.erase, h] using Memory.read_filter_of_mem m (fun z => decide (z ≠ a)) b (by simpa using h)

/-- A read after a write: the written byte there, the old byte everywhere else. -/
theorem Memory.read_write (m : Memory) (a : Nat) (v : Byte) (b : Nat) :
    (m.write a v).read b = if b = a then v else m.read b := by
  unfold Memory.write
  split_ifs with hv hb hb
  · simp [Memory.read_erase, hb, hv]
  · simp [Memory.read_erase, hb]
  · simp [Memory.read_insert, hb]
  · simp [Memory.read_insert, hb]

@[simp] theorem Memory.read_write_same (m : Memory) (a : Nat) (v : Byte) : (m.write a v).read a = v := by
  simp [Memory.read_write]

theorem Memory.read_write_ne (m : Memory) (a : Nat) (v : Byte) {b : Nat} (h : b ≠ a) :
    (m.write a v).read b = m.read b := by
  simp [Memory.read_write, h]

theorem Memory.read_run (v : Byte) (n : Nat) (a b : Nat) :
    Memory.read (Memory.run v a n) b = if a ≤ b ∧ b < a + n then v else Memory.blank := by
  induction n generalizing a with
  | zero => simp [Memory.run]
  | succ n ih =>
    simp only [Memory.run, Memory.read_cons, ih]
    split_ifs <;> first | rfl | omega

theorem Memory.read_append (m n : Memory) (b : Nat) :
    Memory.read (m ++ n) b = if m.any (fun c => decide (c.1 = b)) then m.read b else n.read b := by
  induction m with
  | nil => simp
  | cons c m ih =>
    by_cases h : c.1 = b <;> simp [Memory.read_cons, h, ih]

/-- A read after a fill: the filled byte in the range, the old byte everywhere else. -/
theorem Memory.read_fill (m : Memory) (a n : Nat) (v : Byte) (b : Nat) :
    (m.fill a n v).read b = if a ≤ b ∧ b < a + n then v else m.read b := by
  have any_run : ∀ (n a : Nat), (Memory.run v a n).any (fun c => decide (c.1 = b)) = decide (a ≤ b ∧ b < a + n) := by
    intro n
    induction n with
    | zero => intro a; simp [Memory.run]
    | succ n ih =>
      intro a
      simp only [Memory.run, List.any_cons, ih]
      rw [Bool.eq_iff_iff]; simp; omega
  unfold Memory.fill
  rw [Memory.read_append, Memory.read_append]
  by_cases hlo : b < a
  · have hne : ¬ (a ≤ b ∧ b < a + n) := by omega
    have hhi : ¬ (a + n ≤ b) := by omega
    have hr : (if v = Memory.blank then ([] : Memory) else Memory.run v a n).any (fun c => decide (c.1 = b)) = false := by
      split_ifs
      · rfl
      · rw [any_run]; simpa using hne
    have h1 := Memory.read_filter_of_mem m (fun z => decide (z < a)) b (by simpa using hlo)
    have h2 := Memory.read_filter_of_not m (fun z => decide (a + n ≤ z)) b (by simpa using hhi)
    rw [List.any_append, hr, if_neg hne, h2, h1]
    by_cases hany : (m.filter (fun c => decide (c.1 < a))).any (fun c => decide (c.1 = b)) = true
    · simp [hany]
    · have hblank : m.read b = Memory.blank := by
        rw [← h1]
        clear h1 h2 hr any_run
        generalize m.filter (fun c => decide (c.1 < a)) = q at hany
        induction q with
        | nil => rfl
        | cons c q ih =>
          simp only [List.any_cons, Bool.or_eq_true, decide_eq_true_eq, not_or] at hany
          simp [Memory.read_cons, hany.1, ih hany.2]
      simp [hany, hblank]
  · have hfl : (m.filter (fun c => decide (c.1 < a))).any (fun c => decide (c.1 = b)) = false := by
      simp only [List.any_eq_false, List.mem_filter, decide_eq_true_eq, and_imp]
      intro c _ hc hcb; omega
    by_cases hmid : a ≤ b ∧ b < a + n
    · have hhi := Memory.read_filter_of_not m (fun z => decide (a + n ≤ z)) b (by simp; omega)
      by_cases hv : v = Memory.blank
      · simp [hfl, hv, hmid, hhi]
      · simp [hfl, hv, hmid, any_run, Memory.read_run]
    · have hhi := Memory.read_filter_of_mem m (fun z => decide (a + n ≤ z)) b (by simp; omega)
      have hr : (if v = Memory.blank then ([] : Memory) else Memory.run v a n).any (fun c => decide (c.1 = b)) = false := by
        split_ifs
        · rfl
        · rw [any_run]; simpa using hmid
      rw [List.any_append, hfl, hr]
      simp [hmid, hhi]

/-! ## The canonical form -/

/-- Every address of the memory is at least `lo`. -/
def Memory.above (lo : Nat) (m : Memory) : Prop := ∀ c ∈ m, lo ≤ c.1

theorem Memory.rising_cons (c : Host.Cell) (m : Memory) :
    Memory.rising (c :: m) = true ↔ Memory.above (c.1 + 1) m ∧ Memory.rising m = true := by
  induction m generalizing c with
  | nil => simp [Memory.rising, Memory.above]
  | cons d m ih =>
    simp only [Memory.rising, Bool.and_eq_true, decide_eq_true_eq]
    constructor
    · rintro ⟨h, hr⟩
      refine ⟨?_, hr⟩
      have habove := ((ih d).1 hr).1
      intro e he
      rcases List.mem_cons.1 he with rfl | he
      · omega
      · have := habove e he; omega
    · rintro ⟨h, hr⟩
      exact ⟨by have := h d (List.mem_cons_self); omega, hr⟩

theorem Memory.wf_cons (c : Host.Cell) (m : Memory) :
    Memory.wf (c :: m) = true ↔
      (c.1 < Memory.size ∧ c.2 ≠ Memory.blank) ∧ Memory.above (c.1 + 1) m ∧ Memory.wf m = true := by
  simp only [Memory.wf, List.all_cons, Bool.and_eq_true, Memory.rising_cons, decide_eq_true_eq, Bool.not_eq_true',
    beq_eq_false_iff_ne]
  tauto

theorem Memory.above_insert {lo : Nat} {m : Memory} {a : Nat} (v : Byte) (h : Memory.above lo m) (ha : lo ≤ a) :
    Memory.above lo (Memory.insert m a v) := by
  induction m with
  | nil => intro c hc; simp [Memory.insert] at hc; simp [hc, ha]
  | cons d m ih =>
    have hd := h d List.mem_cons_self
    have hm : Memory.above lo m := fun c hc => h c (List.mem_cons_of_mem _ hc)
    unfold Memory.insert
    split_ifs
    · intro c hc
      rcases List.mem_cons.1 hc with rfl | hc
      · exact hd
      · exact ih hm c hc
    · intro c hc
      rcases List.mem_cons.1 hc with rfl | hc
      · exact ha
      · exact hm c hc
    · intro c hc
      rcases List.mem_cons.1 hc with rfl | hc
      · exact ha
      · exact h c hc

theorem Memory.wf_insert {m : Memory} {a : Nat} {v : Byte} (h : Memory.wf m = true) (ha : a < Memory.size)
    (hv : v ≠ Memory.blank) : Memory.wf (Memory.insert m a v) = true := by
  induction m with
  | nil => simp [Memory.insert, ha, hv, Memory.wf, Memory.rising]
  | cons d m ih =>
    obtain ⟨hd, habove, hm⟩ := (Memory.wf_cons d m).1 h
    unfold Memory.insert
    split_ifs with h1 h2
    · exact (Memory.wf_cons _ _).2 ⟨hd, Memory.above_insert v habove (by omega), ih hm⟩
    · exact (Memory.wf_cons _ _).2 ⟨⟨ha, hv⟩, by simpa [← h2] using habove, hm⟩
    · refine (Memory.wf_cons _ _).2 ⟨⟨ha, hv⟩, ?_, h⟩
      intro c hc
      show a + 1 ≤ c.1
      rcases List.mem_cons.1 hc with rfl | hc
      · omega
      · have := habove c hc; omega

theorem Memory.wf_filter {m : Memory} (p : Host.Cell → Bool) (h : Memory.wf m = true) : Memory.wf (m.filter p) = true := by
  induction m with
  | nil => rfl
  | cons d m ih =>
    obtain ⟨hd, habove, hm⟩ := (Memory.wf_cons d m).1 h
    rw [List.filter_cons]
    split_ifs
    · exact (Memory.wf_cons _ _).2 ⟨hd, fun c hc => habove c (List.mem_filter.1 hc).1, ih hm⟩
    · exact ih hm

/-- A write inside the address space keeps the canonical form. -/
theorem Memory.wf_write {m : Memory} {a : Nat} (v : Byte) (h : Memory.wf m = true) (ha : a < Memory.size) :
    Memory.wf (m.write a v) = true := by
  unfold Memory.write
  split_ifs with hv
  · exact Memory.wf_filter _ h
  · exact Memory.wf_insert h ha hv

theorem Memory.above_run (v : Byte) (a n : Nat) : Memory.above a (Memory.run v a n) := by
  induction n generalizing a with
  | zero => intro c hc; simp [Memory.run] at hc
  | succ n ih =>
    intro c hc
    rcases List.mem_cons.1 hc with rfl | hc
    · exact Nat.le_refl _
    · have := ih (a + 1) c hc; omega

theorem Memory.below_run (v : Byte) (a n : Nat) : ∀ c ∈ Memory.run v a n, c.1 < a + n := by
  induction n generalizing a with
  | zero => intro c hc; simp [Memory.run] at hc
  | succ n ih =>
    intro c hc
    rcases List.mem_cons.1 hc with rfl | hc
    · show a < a + (n + 1); omega
    · have := ih (a + 1) c hc; omega

theorem Memory.wf_run {v : Byte} (hv : v ≠ Memory.blank) {a n : Nat} (h : a + n ≤ Memory.size) :
    Memory.wf (Memory.run v a n) = true := by
  induction n generalizing a with
  | zero => rfl
  | succ n ih =>
    exact (Memory.wf_cons _ _).2 ⟨⟨by show a < _; omega, hv⟩, Memory.above_run v (a + 1) n, ih (by omega)⟩

theorem Memory.wf_append {m n : Memory} (k : Nat) (hm : Memory.wf m = true) (hn : Memory.wf n = true)
    (hlo : ∀ c ∈ m, c.1 < k) (hhi : Memory.above k n) : Memory.wf (m ++ n) = true := by
  induction m with
  | nil => exact hn
  | cons d m ih =>
    obtain ⟨hd, habove, hm'⟩ := (Memory.wf_cons d m).1 hm
    refine (Memory.wf_cons _ _).2 ⟨hd, ?_, ih hm' (fun c hc => hlo c (List.mem_cons_of_mem _ hc))⟩
    intro c hc
    rcases List.mem_append.1 hc with hc | hc
    · exact habove c hc
    · have h1 := hlo d List.mem_cons_self
      have h2 := hhi c hc
      omega

/-- A fill inside the address space keeps the canonical form. -/
theorem Memory.wf_fill {m : Memory} {a n : Nat} (v : Byte) (h : Memory.wf m = true) (hs : a + n ≤ Memory.size) :
    Memory.wf (m.fill a n v) = true := by
  have hlow : Memory.wf (m.filter (fun c => decide (c.1 < a)) ++
      (if v = Memory.blank then [] else Memory.run v a n)) = true := by
    refine Memory.wf_append a (Memory.wf_filter _ h) ?_ (fun c hc => by simpa using (List.mem_filter.1 hc).2) ?_
    · split_ifs with hv
      · rfl
      · exact Memory.wf_run hv hs
    · split_ifs
      · intro c hc; simp at hc
      · exact Memory.above_run v a n
  refine Memory.wf_append (a + n) hlow (Memory.wf_filter _ h) ?_ (fun c hc => by simpa using (List.mem_filter.1 hc).2)
  intro c hc
  rcases List.mem_append.1 hc with hc | hc
  · have : c.1 < a := by simpa using (List.mem_filter.1 hc).2
    omega
  · split_ifs at hc
    · simp at hc
    · exact Memory.below_run v a n c hc

@[simp] theorem Memory.wf_nil : Memory.wf [] = true := rfl

theorem Memory.read_of_above {m : Memory} {a lo : Nat} (h : Memory.above lo m) (ha : a < lo) :
    m.read a = Memory.blank := by
  induction m with
  | nil => rfl
  | cons d m ih =>
    have hd := h d List.mem_cons_self
    rw [Memory.read_cons, if_neg (by omega)]
    exact ih (fun c hc => h c (List.mem_cons_of_mem _ hc))

/-- Two memories in canonical form that read the same everywhere are the same data. -/
theorem Memory.ext_of_wf {m n : Memory} (hm : Memory.wf m = true) (hn : Memory.wf n = true)
    (h : ∀ a, m.read a = n.read a) : m = n := by
  induction m generalizing n with
  | nil =>
    cases n with
    | nil => rfl
    | cons d n =>
      obtain ⟨hd, -, -⟩ := (Memory.wf_cons d n).1 hn
      exact absurd (h d.1).symm (by simp [Memory.read_cons, hd.2])
  | cons c m ih =>
    obtain ⟨hc, hca, hm'⟩ := (Memory.wf_cons c m).1 hm
    cases n with
    | nil => exact absurd (h c.1) (by simp [Memory.read_cons, hc.2])
    | cons d n =>
      obtain ⟨hd, hda, hn'⟩ := (Memory.wf_cons d n).1 hn
      have heq : c.1 = d.1 := by
        rcases Nat.lt_trichotomy c.1 d.1 with hlt | heq | hgt
        · have hb : Memory.read n c.1 = Memory.blank := Memory.read_of_above hda (by omega)
          have := h c.1
          rw [Memory.read_cons, if_pos rfl, Memory.read_cons, if_neg (by omega), hb] at this
          exact absurd this hc.2
        · exact heq
        · have hb : Memory.read m d.1 = Memory.blank := Memory.read_of_above hca (by omega)
          have := h d.1
          rw [Memory.read_cons, if_neg (by omega), hb, Memory.read_cons, if_pos rfl] at this
          exact absurd this.symm hd.2
      have hval : c.2 = d.2 := by
        have := h c.1
        rwa [Memory.read_cons, if_pos rfl, Memory.read_cons, if_pos heq.symm] at this
      have htail : m = n := by
        refine ih hm' hn' (fun a => ?_)
        by_cases ha : c.1 = a
        · rw [Memory.read_of_above hca (by omega), Memory.read_of_above hda (by omega)]
        · have := h a
          rwa [Memory.read_cons, if_neg ha, Memory.read_cons, if_neg (by omega)] at this
      rw [htail, Prod.ext heq hval]

end Sys2Proof.Machine
end

