-- ==== Sys2Proof/Laws/State.lean ====
section
/-! SUPPORT. One lemma per field of the state per update, true by rfl, so that no proof unfolds an update. -/

namespace Sys2Proof.Machine

@[simp] theorem State.withRegs_config (s : State) (r : RegisterFile) : (s.withRegs r).config = s.config := rfl
@[simp] theorem State.withRegs_regs (s : State) (r : RegisterFile) : (s.withRegs r).regs = r := rfl
@[simp] theorem State.withRegs_latchA (s : State) (r : RegisterFile) : (s.withRegs r).latchA = s.latchA := rfl
@[simp] theorem State.withRegs_latchB (s : State) (r : RegisterFile) : (s.withRegs r).latchB = s.latchB := rfl
@[simp] theorem State.withRegs_mem (s : State) (r : RegisterFile) : (s.withRegs r).mem = s.mem := rfl
@[simp] theorem State.withRegs_pending (s : State) (r : RegisterFile) : (s.withRegs r).pending = s.pending := rfl
@[simp] theorem State.withRegs_diag (s : State) (r : RegisterFile) : (s.withRegs r).diag = s.diag := rfl
@[simp] theorem State.withRegs_decoder (s : State) (r : RegisterFile) : (s.withRegs r).decoder = s.decoder := rfl
@[simp] theorem State.withRegs_inbox (s : State) (r : RegisterFile) : (s.withRegs r).inbox = s.inbox := rfl
@[simp] theorem State.withRegs_outputs (s : State) (r : RegisterFile) : (s.withRegs r).outputs = s.outputs := rfl

@[simp] theorem State.withMem_config (s : State) (m : Memory) : (s.withMem m).config = s.config := rfl
@[simp] theorem State.withMem_regs (s : State) (m : Memory) : (s.withMem m).regs = s.regs := rfl
@[simp] theorem State.withMem_latchA (s : State) (m : Memory) : (s.withMem m).latchA = s.latchA := rfl
@[simp] theorem State.withMem_latchB (s : State) (m : Memory) : (s.withMem m).latchB = s.latchB := rfl
@[simp] theorem State.withMem_mem (s : State) (m : Memory) : (s.withMem m).mem = m := rfl
@[simp] theorem State.withMem_pending (s : State) (m : Memory) : (s.withMem m).pending = s.pending := rfl
@[simp] theorem State.withMem_diag (s : State) (m : Memory) : (s.withMem m).diag = s.diag := rfl
@[simp] theorem State.withMem_decoder (s : State) (m : Memory) : (s.withMem m).decoder = s.decoder := rfl
@[simp] theorem State.withMem_inbox (s : State) (m : Memory) : (s.withMem m).inbox = s.inbox := rfl
@[simp] theorem State.withMem_outputs (s : State) (m : Memory) : (s.withMem m).outputs = s.outputs := rfl

@[simp] theorem State.withDecoder_config (s : State) (d : Decoder) : (s.withDecoder d).config = s.config := rfl
@[simp] theorem State.withDecoder_regs (s : State) (d : Decoder) : (s.withDecoder d).regs = s.regs := rfl
@[simp] theorem State.withDecoder_latchA (s : State) (d : Decoder) : (s.withDecoder d).latchA = s.latchA := rfl
@[simp] theorem State.withDecoder_latchB (s : State) (d : Decoder) : (s.withDecoder d).latchB = s.latchB := rfl
@[simp] theorem State.withDecoder_mem (s : State) (d : Decoder) : (s.withDecoder d).mem = s.mem := rfl
@[simp] theorem State.withDecoder_pending (s : State) (d : Decoder) : (s.withDecoder d).pending = s.pending := rfl
@[simp] theorem State.withDecoder_diag (s : State) (d : Decoder) : (s.withDecoder d).diag = s.diag := rfl
@[simp] theorem State.withDecoder_decoder (s : State) (d : Decoder) : (s.withDecoder d).decoder = d := rfl
@[simp] theorem State.withDecoder_inbox (s : State) (d : Decoder) : (s.withDecoder d).inbox = s.inbox := rfl
@[simp] theorem State.withDecoder_outputs (s : State) (d : Decoder) : (s.withDecoder d).outputs = s.outputs := rfl

@[simp] theorem State.withInbox_config (s : State) (es : List HostEntry) : (s.withInbox es).config = s.config := rfl
@[simp] theorem State.withInbox_regs (s : State) (es : List HostEntry) : (s.withInbox es).regs = s.regs := rfl
@[simp] theorem State.withInbox_latchA (s : State) (es : List HostEntry) : (s.withInbox es).latchA = s.latchA := rfl
@[simp] theorem State.withInbox_latchB (s : State) (es : List HostEntry) : (s.withInbox es).latchB = s.latchB := rfl
@[simp] theorem State.withInbox_mem (s : State) (es : List HostEntry) : (s.withInbox es).mem = s.mem := rfl
@[simp] theorem State.withInbox_pending (s : State) (es : List HostEntry) : (s.withInbox es).pending = s.pending := rfl
@[simp] theorem State.withInbox_diag (s : State) (es : List HostEntry) : (s.withInbox es).diag = s.diag := rfl
@[simp] theorem State.withInbox_decoder (s : State) (es : List HostEntry) : (s.withInbox es).decoder = s.decoder := rfl
@[simp] theorem State.withInbox_inbox (s : State) (es : List HostEntry) : (s.withInbox es).inbox = es := rfl
@[simp] theorem State.withInbox_outputs (s : State) (es : List HostEntry) : (s.withInbox es).outputs = s.outputs := rfl

@[simp] theorem State.emit_config (s : State) (o : Output) : (s.emit o).config = s.config := rfl
@[simp] theorem State.emit_regs (s : State) (o : Output) : (s.emit o).regs = s.regs := rfl
@[simp] theorem State.emit_latchA (s : State) (o : Output) : (s.emit o).latchA = s.latchA := rfl
@[simp] theorem State.emit_latchB (s : State) (o : Output) : (s.emit o).latchB = s.latchB := rfl
@[simp] theorem State.emit_mem (s : State) (o : Output) : (s.emit o).mem = s.mem := rfl
@[simp] theorem State.emit_pending (s : State) (o : Output) : (s.emit o).pending = s.pending := rfl
@[simp] theorem State.emit_diag (s : State) (o : Output) : (s.emit o).diag = s.diag := rfl
@[simp] theorem State.emit_decoder (s : State) (o : Output) : (s.emit o).decoder = s.decoder := rfl
@[simp] theorem State.emit_inbox (s : State) (o : Output) : (s.emit o).inbox = s.inbox := rfl
@[simp] theorem State.emit_outputs (s : State) (o : Output) : (s.emit o).outputs = s.outputs ++ [o] := rfl

@[simp] theorem State.withLatchA_config (s : State) (b : Byte) : (s.withLatch .a b).config = s.config := rfl
@[simp] theorem State.withLatchA_regs (s : State) (b : Byte) : (s.withLatch .a b).regs = s.regs := rfl
@[simp] theorem State.withLatchA_latchA (s : State) (b : Byte) : (s.withLatch .a b).latchA = b := rfl
@[simp] theorem State.withLatchA_latchB (s : State) (b : Byte) : (s.withLatch .a b).latchB = s.latchB := rfl
@[simp] theorem State.withLatchA_mem (s : State) (b : Byte) : (s.withLatch .a b).mem = s.mem := rfl
@[simp] theorem State.withLatchA_pending (s : State) (b : Byte) : (s.withLatch .a b).pending = s.pending := rfl
@[simp] theorem State.withLatchA_diag (s : State) (b : Byte) : (s.withLatch .a b).diag = s.diag := rfl
@[simp] theorem State.withLatchA_decoder (s : State) (b : Byte) : (s.withLatch .a b).decoder = s.decoder := rfl
@[simp] theorem State.withLatchA_inbox (s : State) (b : Byte) : (s.withLatch .a b).inbox = s.inbox := rfl
@[simp] theorem State.withLatchA_outputs (s : State) (b : Byte) : (s.withLatch .a b).outputs = s.outputs := rfl

@[simp] theorem State.withLatchB_config (s : State) (b : Byte) : (s.withLatch .b b).config = s.config := rfl
@[simp] theorem State.withLatchB_regs (s : State) (b : Byte) : (s.withLatch .b b).regs = s.regs := rfl
@[simp] theorem State.withLatchB_latchA (s : State) (b : Byte) : (s.withLatch .b b).latchA = s.latchA := rfl
@[simp] theorem State.withLatchB_latchB (s : State) (b : Byte) : (s.withLatch .b b).latchB = b := rfl
@[simp] theorem State.withLatchB_mem (s : State) (b : Byte) : (s.withLatch .b b).mem = s.mem := rfl
@[simp] theorem State.withLatchB_pending (s : State) (b : Byte) : (s.withLatch .b b).pending = s.pending := rfl
@[simp] theorem State.withLatchB_diag (s : State) (b : Byte) : (s.withLatch .b b).diag = s.diag := rfl
@[simp] theorem State.withLatchB_decoder (s : State) (b : Byte) : (s.withLatch .b b).decoder = s.decoder := rfl
@[simp] theorem State.withLatchB_inbox (s : State) (b : Byte) : (s.withLatch .b b).inbox = s.inbox := rfl
@[simp] theorem State.withLatchB_outputs (s : State) (b : Byte) : (s.withLatch .b b).outputs = s.outputs := rfl

@[simp] theorem State.raise_config (s : State) (d : Diag) : (s.raise d).config = s.config := rfl
@[simp] theorem State.raise_regs (s : State) (d : Diag) : (s.raise d).regs = s.regs := rfl
@[simp] theorem State.raise_latchA (s : State) (d : Diag) : (s.raise d).latchA = s.latchA := rfl
@[simp] theorem State.raise_latchB (s : State) (d : Diag) : (s.raise d).latchB = s.latchB := rfl
@[simp] theorem State.raise_mem (s : State) (d : Diag) : (s.raise d).mem = s.mem := rfl
@[simp] theorem State.raise_pending (s : State) (d : Diag) : (s.raise d).pending = s.pending := rfl
@[simp] theorem State.raise_diag (s : State) (d : Diag) : (s.raise d).diag = s.diag ++ [d] := rfl
@[simp] theorem State.raise_decoder (s : State) (d : Diag) : (s.raise d).decoder = s.decoder := rfl
@[simp] theorem State.raise_inbox (s : State) (d : Diag) : (s.raise d).inbox = s.inbox := rfl
@[simp] theorem State.raise_outputs (s : State) (d : Diag) : (s.raise d).outputs = s.outputs := rfl

@[simp] theorem State.schedule_config (s : State) (f : DelayFamily) : (s.schedule f).config = s.config := rfl
@[simp] theorem State.schedule_regs (s : State) (f : DelayFamily) : (s.schedule f).regs = s.regs := rfl
@[simp] theorem State.schedule_latchA (s : State) (f : DelayFamily) : (s.schedule f).latchA = s.latchA := rfl
@[simp] theorem State.schedule_latchB (s : State) (f : DelayFamily) : (s.schedule f).latchB = s.latchB := rfl
@[simp] theorem State.schedule_mem (s : State) (f : DelayFamily) : (s.schedule f).mem = s.mem := rfl
@[simp] theorem State.schedule_pending (s : State) (f : DelayFamily) : (s.schedule f).pending = s.pending + 1 := rfl
@[simp] theorem State.schedule_diag (s : State) (f : DelayFamily) : (s.schedule f).diag = s.diag := rfl
@[simp] theorem State.schedule_decoder (s : State) (f : DelayFamily) : (s.schedule f).decoder = s.decoder := rfl
@[simp] theorem State.schedule_inbox (s : State) (f : DelayFamily) : (s.schedule f).inbox = s.inbox := rfl
@[simp] theorem State.schedule_outputs (s : State) (f : DelayFamily) : (s.schedule f).outputs = s.outputs ++ [.token f (s.config.delay f)] := rfl

@[simp] theorem State.undefinedRegister_config (s : State) (p : PortPair) (i : BitVec 6) (v : BitVec 10) : (s.undefinedRegister p i v).config = s.config := rfl
@[simp] theorem State.undefinedRegister_regs (s : State) (p : PortPair) (i : BitVec 6) (v : BitVec 10) : (s.undefinedRegister p i v).regs = s.regs := rfl
@[simp] theorem State.undefinedRegister_latchA (s : State) (p : PortPair) (i : BitVec 6) (v : BitVec 10) : (s.undefinedRegister p i v).latchA = s.latchA := rfl
@[simp] theorem State.undefinedRegister_latchB (s : State) (p : PortPair) (i : BitVec 6) (v : BitVec 10) : (s.undefinedRegister p i v).latchB = s.latchB := rfl
@[simp] theorem State.undefinedRegister_mem (s : State) (p : PortPair) (i : BitVec 6) (v : BitVec 10) : (s.undefinedRegister p i v).mem = s.mem := rfl
@[simp] theorem State.undefinedRegister_pending (s : State) (p : PortPair) (i : BitVec 6) (v : BitVec 10) : (s.undefinedRegister p i v).pending = s.pending := rfl
@[simp] theorem State.undefinedRegister_diag (s : State) (p : PortPair) (i : BitVec 6) (v : BitVec 10) : (s.undefinedRegister p i v).diag = s.diag ++ [.undefinedRegister p i v] := rfl
@[simp] theorem State.undefinedRegister_decoder (s : State) (p : PortPair) (i : BitVec 6) (v : BitVec 10) : (s.undefinedRegister p i v).decoder = s.decoder := rfl
@[simp] theorem State.undefinedRegister_inbox (s : State) (p : PortPair) (i : BitVec 6) (v : BitVec 10) : (s.undefinedRegister p i v).inbox = s.inbox := rfl
@[simp] theorem State.undefinedRegister_outputs (s : State) (p : PortPair) (i : BitVec 6) (v : BitVec 10) : (s.undefinedRegister p i v).outputs = s.outputs := rfl

@[simp] theorem State.raiseOverruns_config (s : State) (bs : List Nat) : (s.raiseOverruns bs).config = s.config := rfl
@[simp] theorem State.raiseOverruns_regs (s : State) (bs : List Nat) : (s.raiseOverruns bs).regs = s.regs := rfl
@[simp] theorem State.raiseOverruns_latchA (s : State) (bs : List Nat) : (s.raiseOverruns bs).latchA = s.latchA := rfl
@[simp] theorem State.raiseOverruns_latchB (s : State) (bs : List Nat) : (s.raiseOverruns bs).latchB = s.latchB := rfl
@[simp] theorem State.raiseOverruns_mem (s : State) (bs : List Nat) : (s.raiseOverruns bs).mem = s.mem := rfl
@[simp] theorem State.raiseOverruns_pending (s : State) (bs : List Nat) : (s.raiseOverruns bs).pending = s.pending := rfl
@[simp] theorem State.raiseOverruns_diag (s : State) (bs : List Nat) : (s.raiseOverruns bs).diag = s.diag ++ bs.map .romOverrun := rfl
@[simp] theorem State.raiseOverruns_decoder (s : State) (bs : List Nat) : (s.raiseOverruns bs).decoder = s.decoder := rfl
@[simp] theorem State.raiseOverruns_inbox (s : State) (bs : List Nat) : (s.raiseOverruns bs).inbox = s.inbox := rfl
@[simp] theorem State.raiseOverruns_outputs (s : State) (bs : List Nat) : (s.raiseOverruns bs).outputs = s.outputs := rfl

@[simp] theorem State.raiseIf_config (s : State) (c : Bool) (d : Diag) : (s.raiseIf c d).config = s.config := by
  cases c <;> rfl
@[simp] theorem State.raiseIf_regs (s : State) (c : Bool) (d : Diag) : (s.raiseIf c d).regs = s.regs := by
  cases c <;> rfl
@[simp] theorem State.raiseIf_latchA (s : State) (c : Bool) (d : Diag) : (s.raiseIf c d).latchA = s.latchA := by
  cases c <;> rfl
@[simp] theorem State.raiseIf_latchB (s : State) (c : Bool) (d : Diag) : (s.raiseIf c d).latchB = s.latchB := by
  cases c <;> rfl
@[simp] theorem State.raiseIf_mem (s : State) (c : Bool) (d : Diag) : (s.raiseIf c d).mem = s.mem := by
  cases c <;> rfl
@[simp] theorem State.raiseIf_pending (s : State) (c : Bool) (d : Diag) : (s.raiseIf c d).pending = s.pending := by
  cases c <;> rfl
@[simp] theorem State.raiseIf_decoder (s : State) (c : Bool) (d : Diag) : (s.raiseIf c d).decoder = s.decoder := by
  cases c <;> rfl
@[simp] theorem State.raiseIf_inbox (s : State) (c : Bool) (d : Diag) : (s.raiseIf c d).inbox = s.inbox := by
  cases c <;> rfl
@[simp] theorem State.raiseIf_outputs (s : State) (c : Bool) (d : Diag) : (s.raiseIf c d).outputs = s.outputs := by
  cases c <;> rfl
@[simp] theorem State.raiseIf_diag (s : State) (c : Bool) (d : Diag) :
    (s.raiseIf c d).diag = s.diag ++ (if c then [d] else []) := by
  cases c <;> simp [State.raiseIf]

@[simp] theorem State.latch_a (s : State) : s.latch .a = s.latchA := rfl
@[simp] theorem State.latch_b (s : State) : s.latch .b = s.latchB := rfl

@[simp] theorem State.latch_withLatch (s : State) (p : PortPair) (b : Byte) : (s.withLatch p b).latch p = b := by
  cases p <;> rfl

@[simp] theorem State.withLatch_config (s : State) (p : PortPair) (b : Byte) : (s.withLatch p b).config = s.config := by
  cases p <;> rfl
@[simp] theorem State.withLatch_regs (s : State) (p : PortPair) (b : Byte) : (s.withLatch p b).regs = s.regs := by
  cases p <;> rfl
@[simp] theorem State.withLatch_mem (s : State) (p : PortPair) (b : Byte) : (s.withLatch p b).mem = s.mem := by
  cases p <;> rfl
@[simp] theorem State.withLatch_pending (s : State) (p : PortPair) (b : Byte) : (s.withLatch p b).pending = s.pending := by
  cases p <;> rfl
@[simp] theorem State.withLatch_diag (s : State) (p : PortPair) (b : Byte) : (s.withLatch p b).diag = s.diag := by
  cases p <;> rfl
@[simp] theorem State.withLatch_decoder (s : State) (p : PortPair) (b : Byte) : (s.withLatch p b).decoder = s.decoder := by
  cases p <;> rfl
@[simp] theorem State.withLatch_inbox (s : State) (p : PortPair) (b : Byte) : (s.withLatch p b).inbox = s.inbox := by
  cases p <;> rfl
@[simp] theorem State.withLatch_outputs (s : State) (p : PortPair) (b : Byte) : (s.withLatch p b).outputs = s.outputs := by
  cases p <;> rfl

/-! The fields of a fresh device. -/

@[simp] theorem State.fresh_config (cfg : Config) : (State.fresh cfg).config = cfg := rfl
@[simp] theorem State.fresh_regs (cfg : Config) : (State.fresh cfg).regs = RegisterFile.reset := rfl
@[simp] theorem State.fresh_latchA (cfg : Config) : (State.fresh cfg).latchA = 0 := rfl
@[simp] theorem State.fresh_latchB (cfg : Config) : (State.fresh cfg).latchB = 0 := rfl
@[simp] theorem State.fresh_mem (cfg : Config) : (State.fresh cfg).mem = [] := rfl
@[simp] theorem State.fresh_pending (cfg : Config) : (State.fresh cfg).pending = 0 := rfl
@[simp] theorem State.fresh_diag (cfg : Config) : (State.fresh cfg).diag = [] := rfl
@[simp] theorem State.fresh_decoder (cfg : Config) : (State.fresh cfg).decoder = .idle := rfl
@[simp] theorem State.fresh_inbox (cfg : Config) : (State.fresh cfg).inbox = [] := rfl
@[simp] theorem State.fresh_outputs (cfg : Config) : (State.fresh cfg).outputs = [] := rfl

/-! Updates that overwrite each other. -/

@[simp] theorem State.withMem_withMem (s : State) (m n : Memory) : (s.withMem m).withMem n = s.withMem n := rfl
@[simp] theorem State.withMem_self (s : State) : s.withMem s.mem = s := rfl
@[simp] theorem State.withRegs_withRegs (s : State) (q r : RegisterFile) : (s.withRegs q).withRegs r = s.withRegs r := rfl
@[simp] theorem State.withRegs_self (s : State) : s.withRegs s.regs = s := rfl
@[simp] theorem State.withDecoder_withDecoder (s : State) (d e : Decoder) :
    (s.withDecoder d).withDecoder e = s.withDecoder e := rfl

theorem State.withMem_withRegs (s : State) (m : Memory) (r : RegisterFile) :
    (s.withMem m).withRegs r = (s.withRegs r).withMem m := rfl

end Sys2Proof.Machine
end

