-- ==== Sys2Proof/Laws/Ops.lean ====
section
/-! SUPPORT. What each shared operation over the state does, each said once: the stores into the selected layers, `Plot`,
runs of plots, rows, bands and lines. A plot changes the memory only, and only at the addresses it hits. -/

namespace Sys2Proof.Machine

/-! ## Addresses -/

theorem wrap512_lt (z : Int) : wrap512 z < 512 := by unfold wrap512; omega

theorem linear_lt {x y : Nat} (hx : x < 512) (hy : y < 512) : linear x y < layerSize := by
  unfold linear layerSize; omega

theorem layerAddress_lt (l : Layer) {a : Nat} (ha : a < layerSize) : layerAddress l a < Memory.size := by
  have := l.isLt
  unfold layerAddress Memory.size layerSize at *
  omega

theorem layerAddress_inj {l k : Layer} {a b : Nat} (ha : a < layerSize) (hb : b < layerSize)
    (h : layerAddress l a = layerAddress k b) : l = k ∧ a = b := by
  unfold layerAddress layerSize at *
  exact ⟨Fin.ext (by omega), by omega⟩

theorem pixelAddress_inj {l k : Layer} {x y z w : Nat} (hx : x < 512) (hy : y < 512) (hz : z < 512) (hw : w < 512)
    (h : pixelAddress l x y = pixelAddress k z w) : l = k ∧ x = z ∧ y = w := by
  obtain ⟨hl, ha⟩ := layerAddress_inj (linear_lt hx hy) (linear_lt hz hw) h
  unfold linear at ha
  exact ⟨hl, by omega, by omega⟩

theorem mem_allLayers (l : Layer) : l ∈ allLayers := by revert l; decide

/-! ## Stores into the selected layers -/

/-- A fold of per-layer writes of one byte: if each layer's write sets the addresses of a range `P l` to `c`, the fold
sets those of the selected layers. -/
theorem read_forSelected (mask : BitVec 16) (f : Layer → Memory → Memory) (c : Byte) (P : Layer → Nat → Prop)
    [∀ l b, Decidable (P l b)] (hf : ∀ l m b, (f l m).read b = if P l b then c else m.read b) (m : Memory) (b : Nat) :
    (forSelected mask f m).read b =
      if ∃ l, layerSelected mask l = true ∧ P l b then c else m.read b := by
  have key : ∀ (ls : List Layer) (m : Memory),
      (ls.foldl (fun m l => if layerSelected mask l then f l m else m) m).read b =
        if ∃ l ∈ ls, layerSelected mask l = true ∧ P l b then c else m.read b := by
    intro ls
    induction ls with
    | nil => intro m; simp
    | cons k ls ih =>
      intro m
      simp only [List.foldl_cons, ih, List.exists_mem_cons_iff]
      by_cases hk : layerSelected mask k = true
      · simp only [hk, if_true, hf, true_and]
        by_cases hp : P k b <;> simp [hp]
      · simp [hk]
  rw [forSelected, key]
  simp only [mem_allLayers, true_and]

theorem wf_forSelected (mask : BitVec 16) (f : Layer → Memory → Memory)
    (hf : ∀ l m, Memory.wf m = true → Memory.wf (f l m) = true) {m : Memory} (h : Memory.wf m = true) :
    Memory.wf (forSelected mask f m) = true := by
  have key : ∀ (ls : List Layer) (m : Memory), Memory.wf m = true →
      Memory.wf (ls.foldl (fun m l => if layerSelected mask l then f l m else m) m) = true := by
    intro ls
    induction ls with
    | nil => intro m hm; exact hm
    | cons k ls ih =>
      intro m hm
      rw [List.foldl_cons]
      split_ifs
      · exact ih _ (hf k m hm)
      · exact ih _ hm
  exact key _ _ h

/-- A byte store into the selected layers (R244). -/
theorem read_storeSelected (mask : BitVec 16) (a : Nat) (c : Byte) (m : Memory) (b : Nat) :
    (storeSelected mask a c m).read b =
      if ∃ l, layerSelected mask l = true ∧ b = layerAddress l a then c else m.read b :=
  read_forSelected mask _ c (fun l b => b = layerAddress l a) (fun _ m b => Memory.read_write m _ c b) m b

/-- A fill of the selected layers (R253, R254). -/
theorem read_fillSelected (mask : BitVec 16) (a n : Nat) (c : Byte) (m : Memory) (b : Nat) :
    (fillSelected mask a n c m).read b =
      if ∃ l, layerSelected mask l = true ∧ layerAddress l a ≤ b ∧ b < layerAddress l a + n then c else m.read b :=
  read_forSelected mask _ c (fun l b => layerAddress l a ≤ b ∧ b < layerAddress l a + n)
    (fun _ m b => Memory.read_fill m _ n c b) m b

theorem wf_storeSelected (mask : BitVec 16) {a : Nat} (c : Byte) {m : Memory} (h : Memory.wf m = true)
    (ha : a < layerSize) : Memory.wf (storeSelected mask a c m) = true :=
  wf_forSelected mask _ (fun l _ hm => Memory.wf_write c hm (layerAddress_lt l ha)) h

theorem wf_fillSelected (mask : BitVec 16) {a n : Nat} (c : Byte) {m : Memory} (h : Memory.wf m = true)
    (ha : a + n ≤ layerSize) : Memory.wf (fillSelected mask a n c m) = true := by
  refine wf_forSelected mask _ (fun l m hm => Memory.wf_fill c hm ?_) h
  have := l.isLt
  unfold layerAddress Memory.size layerSize at *
  omega

/-! ## Plot -/

/-- A plot changes the memory only (R240). -/
theorem plot_eq_withMem (x y : Int) (c : Byte) (s : State) : plot x y c s = s.withMem (plot x y c s).mem := by
  unfold plot
  dsimp only
  split_ifs <;> rfl

/-- Two changes of the memory only are one. -/
theorem State.withMem_trans {s t u : State} (h : t = s.withMem t.mem) (k : u = t.withMem u.mem) : u = s.withMem u.mem := by
  conv_lhs => rw [k, h]
  rfl

/-- A plot stores its byte at the addresses it hits and leaves every other byte (R240 to R244). -/
theorem read_plot (x y : Int) (c : Byte) (s : State) (a : Nat) [Decidable (Hits s x y a)] :
    (plot x y c s).mem.read a = if Hits s x y a then c else s.mem.read a := by
  simp only [plot, Hits, pixelAddress]
  by_cases h : rejected s.config.clipForm s.regs.clip (wrap512 (swapIf s.regs.flip.swapXY x y).1)
      (wrap512 (swapIf s.regs.flip.swapXY x y).2) = true
  · simp [h]
  · simp [h, read_storeSelected]

theorem wf_plot (x y : Int) (c : Byte) {s : State} (h : Memory.wf s.mem = true) :
    Memory.wf (plot x y c s).mem = true := by
  simp only [plot]
  split_ifs
  · exact h
  · exact wf_storeSelected _ c h (linear_lt (wrap512_lt _) (wrap512_lt _))

/-- Which addresses a plot hits depends on the registers and the configuration only. -/
theorem hits_congr {s t : State} (hr : t.regs.flip = s.regs.flip ∧ t.regs.clip = s.regs.clip ∧
    t.regs.destLayerMask = s.regs.destLayerMask) (hc : t.config = s.config) (x y : Int) (a : Nat) :
    Hits t x y a ↔ Hits s x y a := by
  obtain ⟨h1, h2, h3⟩ := hr
  simp only [Hits, h1, h2, h3, hc]

theorem hits_withMem (s : State) (m : Memory) (x y : Int) (a : Nat) : Hits (s.withMem m) x y a ↔ Hits s x y a :=
  Iff.rfl

/-- Every address a plot hits is inside the address space. -/
theorem hits_lt {s : State} {x y : Int} {a : Nat} (h : Hits s x y a) : a < Memory.size := by
  obtain ⟨-, l, -, rfl⟩ := h
  exact layerAddress_lt l (linear_lt (wrap512_lt _) (wrap512_lt _))

/-! ## Runs -/

/-- A run of plots changes the memory only. -/
theorem plotRun_eq_withMem (y : Int) (d : Dir) (cs : List Byte) (x : Int) (s : State) :
    plotRun y d cs x s = s.withMem (plotRun y d cs x s).mem := by
  induction cs generalizing x s with
  | nil => rfl
  | cons c cs ih => exact State.withMem_trans (plot_eq_withMem x y c s) (ih (x + d.step) (plot x y c s))

theorem wf_plotRun (y : Int) (d : Dir) (cs : List Byte) (x : Int) {s : State} (h : Memory.wf s.mem = true) :
    Memory.wf (plotRun y d cs x s).mem = true := by
  induction cs generalizing x s with
  | nil => exact h
  | cons c cs ih => exact ih _ (wf_plot x y c h)

/-- An address that no pixel of a run hits keeps its byte. -/
theorem read_plotRun_of_not_hit (y : Int) (d : Dir) (cs : List Byte) (x : Int) (s : State) (a : Nat)
    (h : ∀ k < cs.length, ¬ Hits s (x + d.step * (k : Int)) y a) :
    (plotRun y d cs x s).mem.read a = s.mem.read a := by
  classical
  induction cs generalizing x s with
  | nil => rfl
  | cons c cs ih =>
    show (plotRun y d cs (x + d.step) (plot x y c s)).mem.read a = _
    have h0 : ¬ Hits s x y a := by simpa using h 0 (by simp)
    rw [ih, read_plot, if_neg h0]
    intro k hk
    rw [plot_eq_withMem, hits_withMem]
    have := h (k + 1) (by simpa using hk)
    rwa [show x + d.step * ((k + 1 : Nat) : Int) = x + d.step + d.step * (k : Int) by push_cast; ring] at this

/-- An address whose last hit is pixel `k` of a run holds pen `k` (R81: the last store wins). -/
theorem read_plotRun_of_last_hit (y : Int) (d : Dir) (cs : List Byte) (x : Int) (s : State) (a : Nat) (k : Nat)
    (hk : k < cs.length) (hit : Hits s (x + d.step * (k : Int)) y a)
    (later : ∀ j < cs.length, k < j → ¬ Hits s (x + d.step * (j : Int)) y a) :
    (plotRun y d cs x s).mem.read a = cs[k] := by
  classical
  induction cs generalizing x s k with
  | nil => exact absurd hk (by simp)
  | cons c cs ih =>
    show (plotRun y d cs (x + d.step) (plot x y c s)).mem.read a = _
    have shift : ∀ j : Nat, x + d.step * ((j + 1 : Nat) : Int) = x + d.step + d.step * (j : Int) := by
      intro j; push_cast; ring
    cases k with
    | zero =>
      rw [read_plotRun_of_not_hit, read_plot, if_pos (by simpa using hit)]
      · rfl
      · intro j hj
        rw [plot_eq_withMem, hits_withMem, ← shift]
        exact later (j + 1) (by simpa using hj) (by omega)
    | succ k =>
      rw [ih (x + d.step) (plot x y c s) k (by simpa using hk)]
      · rfl
      · rw [plot_eq_withMem, hits_withMem, ← shift]; exact hit
      · intro j hj hkj
        rw [plot_eq_withMem, hits_withMem, ← shift]
        exact later (j + 1) (by simpa using hj) (by omega)

/-! ## Bands and fills -/

theorem wf_fillBandRows (mask : BitVec 16) (c : Byte) (y : Int) (rows : Nat) {m : Memory} (h : Memory.wf m = true) :
    Memory.wf (fillBandRows mask c y rows m) = true := by
  induction rows generalizing y m with
  | zero => exact h
  | succ n ih =>
    refine ih _ (wf_fillSelected mask c h ?_)
    have := wrap512_lt y
    unfold linear layerSize; omega

/-- A band sets every byte of its rows in the selected layers and leaves every other byte (R253). -/
theorem read_fillBandRows (mask : BitVec 16) (c : Byte) (y : Int) (rows : Nat) (m : Memory) (b : Nat) :
    (fillBandRows mask c y rows m).read b =
      open Classical in
      if ∃ l k, layerSelected mask l = true ∧ k < rows ∧ layerAddress l (linear 0 (wrap512 (y + (k : Nat)))) ≤ b ∧
        b < layerAddress l (linear 0 (wrap512 (y + (k : Nat)))) + 512 then c else m.read b := by
  classical
  induction rows generalizing y m with
  | zero => simp [fillBandRows]
  | succ n ih =>
    rw [fillBandRows, ih, read_fillSelected]
    by_cases h0 : ∃ l, layerSelected mask l = true ∧ layerAddress l (linear 0 (wrap512 y)) ≤ b ∧
        b < layerAddress l (linear 0 (wrap512 y)) + 512
    · obtain ⟨l, hl, h1, h2⟩ := h0
      have h : ∃ l k, layerSelected mask l = true ∧ k < n + 1 ∧
          layerAddress l (linear 0 (wrap512 (y + (k : Nat)))) ≤ b ∧
          b < layerAddress l (linear 0 (wrap512 (y + (k : Nat)))) + 512 :=
        ⟨l, 0, hl, by omega, by simpa using h1, by simpa using h2⟩
      rw [if_pos h, if_pos (⟨l, hl, h1, h2⟩ : ∃ l, layerSelected mask l = true ∧
        layerAddress l (linear 0 (wrap512 y)) ≤ b ∧ b < layerAddress l (linear 0 (wrap512 y)) + 512), ite_self]
    · rw [if_neg h0]
      congr 1
      apply propext
      constructor
      · rintro ⟨l, k, hl, hk, h1, h2⟩
        refine ⟨l, k + 1, hl, by omega, ?_, ?_⟩
        · rwa [show y + ((k + 1 : Nat) : Int) = y + 1 + (k : Nat) by push_cast; ring]
        · rwa [show y + ((k + 1 : Nat) : Int) = y + 1 + (k : Nat) by push_cast; ring]
      · rintro ⟨l, k, hl, hk, h1, h2⟩
        cases k with
        | zero => exact absurd ⟨l, hl, by simpa using h1, by simpa using h2⟩ h0
        | succ k =>
          refine ⟨l, k, hl, by omega, ?_, ?_⟩
          · rwa [show y + ((k + 1 : Nat) : Int) = y + 1 + (k : Nat) by push_cast; ring] at h1
          · rwa [show y + ((k + 1 : Nat) : Int) = y + 1 + (k : Nat) by push_cast; ring] at h2

/-- A rectangle's rows change the memory only. -/
theorem plotRows_eq_withMem (x y : Int) (c : Byte) (cols rows : Nat) (s : State) :
    plotRows x y c cols rows s = s.withMem (plotRows x y c cols rows s).mem := by
  induction rows generalizing y s with
  | zero => rfl
  | succ n ih => exact State.withMem_trans (plotRun_eq_withMem y .inc (List.replicate cols c) x s) (ih (y + 1) _)

theorem wf_plotRows (x y : Int) (c : Byte) (cols rows : Nat) {s : State} (h : Memory.wf s.mem = true) :
    Memory.wf (plotRows x y c cols rows s).mem = true := by
  induction rows generalizing y s with
  | zero => exact h
  | succ n ih => exact ih _ (wf_plotRun _ _ _ _ h)

end Sys2Proof.Machine
end

