-- ==== Sys2Proof/Laws/Tables.lean ====
section
/-! SUPPORT. What looking something up backwards in a configuration does: the key it finds is one that the table gives the
thing, and it finds one whenever there is one. -/

namespace Sys2Proof

/-- The key found is one that `f` maps to `a`. -/
theorem lowestKey_sound {α : Type} [DecidableEq α] {w : Nat} {f : BitVec w → Option α} {a : α} {k : BitVec w}
    (h : lowestKey w f a = some k) : f k = some a := by
  simpa using List.find?_some h

/-- A key is found exactly when `f` maps some key to `a`. -/
theorem lowestKey_isSome {α : Type} [DecidableEq α] {w : Nat} {f : BitVec w → Option α} {a : α} :
    (lowestKey w f a).isSome = true ↔ ∃ k, f k = some a := by
  constructor
  · intro h
    obtain ⟨k, hk⟩ := Option.isSome_iff_exists.1 h
    exact ⟨k, lowestKey_sound hk⟩
  · rintro ⟨k, hk⟩
    rw [lowestKey, List.find?_isSome]
    exact ⟨k, List.mem_map.2 ⟨k.toNat, List.mem_range.2 k.isLt, by simp⟩, by simp [hk]⟩

/-- A register has an index on a pair exactly when that pair's layout reaches it. -/
theorem Config.index_isSome {cfg : Config} {p : PortPair} {r : Reg} :
    (cfg.index p r).isSome = true ↔ ∃ i, cfg.reg p i = some r := lowestKey_isSome

/-- The index of the place is one that the layout of the place's pair gives the register. -/
theorem Config.place_sound {cfg : Config} {p : PortPair} {r : Reg} {q : PortPair × BitVec 6}
    (h : cfg.place p r = some q) : cfg.reg q.1 q.2 = some r := by
  unfold Config.place at h
  split at h
  · cases h
    exact lowestKey_sound ‹_›
  · obtain ⟨i, hi, rfl⟩ := Option.map_eq_some_iff.1 h
    exact lowestKey_sound hi

/-- A register has a place exactly when some pair's layout reaches it. -/
theorem Config.place_isSome {cfg : Config} {p : PortPair} {r : Reg} :
    (cfg.place p r).isSome = true ↔ cfg.hasReg r = true := by
  unfold Config.place Config.hasReg
  cases p <;> cases ha : cfg.index .a r <;> cases hb : cfg.index .b r <;> simp [PortPair.other, ha, hb]

@[simp] theorem wordIndex_valueWord (i : BitVec 6) (v : BitVec 10) : wordIndex (valueWord i v) = i := by
  unfold wordIndex valueWord
  ext k hk
  rw [BitVec.getElem_extractLsb', BitVec.getLsbD_append, BitVec.getLsbD_append]
  simp [hk]

@[simp] theorem wordIndex_startWord (i : BitVec 6) (c : BitVec 2) (k : Byte) : wordIndex (startWord i c k) = i := by
  unfold wordIndex startWord
  ext j hj
  rw [BitVec.getElem_extractLsb', BitVec.getLsbD_append, BitVec.getLsbD_append]
  simp [hj]

end Sys2Proof
end

