-- ==== Sys2Proof/Laws/PerInstr.lean ====
section
/-! SUPPORT. The family EncodedForm, per instruction: an encoding of an instruction has the format of its row
(30_encoding.md R101, R102, R104, R105): a word whose index the layout of its pair gives the register, a byte on its port,
or how many bits of the stream. -/

namespace Sys2Proof.Laws

/-- The encoding is a word of a port pair. -/
def isWord (p : PortPair) : Encoding → Bool
  | .word q _ => q == p
  | .selectByte _ _ => false
  | .applyByte _ _ => false
  | .stream _ => false

/-- The encoding is a word whose index the layout of its pair gives the register. -/
def isWordOf (cfg : Config) (r : Reg) : Encoding → Bool
  | .word q w => cfg.reg q (wordIndex w) == some r
  | .selectByte _ _ => false
  | .applyByte _ _ => false
  | .stream _ => false

/-- The encoding is `n` bits of the stream. -/
def isStream (n : Nat) : Encoding → Bool
  | .stream bits => bits.length == n
  | .word _ _ => false
  | .selectByte _ _ => false
  | .applyByte _ _ => false

/-- The format of the instruction's row, with `a` and `p` the current operand sizes (R105). -/
def EncodedForm.format (cfg : Config) (a p : Nat) (i : Instr) (e : Encoding) : Bool :=
  match i with
  | .sel q b => e == .selectByte q b
  | .app q d => e == .applyByte q d
  | .wrDestLayer _ => isWordOf cfg .destLayer e
  | .wrFlip _ => isWordOf cfg .flip e
  | .wrBlitX _ => isWordOf cfg .blitX e
  | .wrBlitY _ => isWordOf cfg .blitY e
  | .wrRectWidth _ => isWordOf cfg .rectWidth e
  | .wrRectHeight _ => isWordOf cfg .rectHeight e
  | .wrLineLength _ => isWordOf cfg .lineLength e
  | .wrPen _ => isWordOf cfg .pen e
  | .wrPenMode _ => isWordOf cfg .penMode e
  | .wrPenMask _ => isWordOf cfg .penMask e
  | .wrClipX _ => isWordOf cfg .clipX e
  | .wrClipY _ => isWordOf cfg .clipY e
  | .wrClipWidth _ => isWordOf cfg .clipWidth e
  | .wrClipHeight _ => isWordOf cfg .clipHeight e
  | .wrClipCtrl _ => isWordOf cfg .clipCtrl e
  | .wrAddrLo _ => isWordOf cfg .addrLo e
  | .wrAddrMid _ => isWordOf cfg .addrMid e
  | .wrAddrHi _ => isWordOf cfg .addrHi e
  | .wrPriority _ => isWordOf cfg .priority e
  | .wrLayerEnable _ => isWordOf cfg .layerEnable e
  | .wrBgColor _ => isWordOf cfg .bgColor e
  | .wrScrollX0 _ => isWordOf cfg (.scrollX 0) e
  | .wrScrollX1 _ => isWordOf cfg (.scrollX 1) e
  | .wrScrollX2 _ => isWordOf cfg (.scrollX 2) e
  | .wrScrollX3 _ => isWordOf cfg (.scrollX 3) e
  | .wrScrollY0 _ => isWordOf cfg (.scrollY 0) e
  | .wrScrollY1 _ => isWordOf cfg (.scrollY 1) e
  | .wrScrollY2 _ => isWordOf cfg (.scrollY 2) e
  | .wrScrollY3 _ => isWordOf cfg (.scrollY 3) e
  | .wrPaletteBase0 _ => isWordOf cfg (.paletteBase 0) e
  | .wrPaletteBase1 _ => isWordOf cfg (.paletteBase 1) e
  | .wrPaletteBase2 _ => isWordOf cfg (.paletteBase 2) e
  | .wrPaletteBase3 _ => isWordOf cfg (.paletteBase 3) e
  | .wrPaletteMask0 _ => isWordOf cfg (.paletteMask 0) e
  | .wrPaletteMask1 _ => isWordOf cfg (.paletteMask 1) e
  | .wrPaletteMask2 _ => isWordOf cfg (.paletteMask 2) e
  | .wrPaletteMask3 _ => isWordOf cfg (.paletteMask 3) e
  | .wrTransPen0 _ => isWordOf cfg (.transPen 0) e
  | .wrTransPen1 _ => isWordOf cfg (.transPen 1) e
  | .wrTransPen2 _ => isWordOf cfg (.transPen 2) e
  | .wrTransPen3 _ => isWordOf cfg (.transPen 3) e
  | .wrTransMask0 _ => isWordOf cfg (.transMask 0) e
  | .wrTransMask1 _ => isWordOf cfg (.transMask 1) e
  | .wrTransMask2 _ => isWordOf cfg (.transMask 2) e
  | .wrTransMask3 _ => isWordOf cfg (.transMask 3) e
  | .wrbPriority2 _ => isWordOf cfg .priority2 e
  | .wrbLayerEnable2 _ => isWordOf cfg .layerEnable2 e
  | .wrbBgColor2 _ => isWordOf cfg .bgColor2 e
  | .wrbScrollX4 _ => isWordOf cfg (.scrollX 4) e
  | .wrbScrollX5 _ => isWordOf cfg (.scrollX 5) e
  | .wrbScrollX6 _ => isWordOf cfg (.scrollX 6) e
  | .wrbScrollX7 _ => isWordOf cfg (.scrollX 7) e
  | .wrbScrollY4 _ => isWordOf cfg (.scrollY 4) e
  | .wrbScrollY5 _ => isWordOf cfg (.scrollY 5) e
  | .wrbScrollY6 _ => isWordOf cfg (.scrollY 6) e
  | .wrbScrollY7 _ => isWordOf cfg (.scrollY 7) e
  | .wrbPaletteBase4 _ => isWordOf cfg (.paletteBase 4) e
  | .wrbPaletteBase5 _ => isWordOf cfg (.paletteBase 5) e
  | .wrbPaletteBase6 _ => isWordOf cfg (.paletteBase 6) e
  | .wrbPaletteBase7 _ => isWordOf cfg (.paletteBase 7) e
  | .wrbPaletteMask4 _ => isWordOf cfg (.paletteMask 4) e
  | .wrbPaletteMask5 _ => isWordOf cfg (.paletteMask 5) e
  | .wrbPaletteMask6 _ => isWordOf cfg (.paletteMask 6) e
  | .wrbPaletteMask7 _ => isWordOf cfg (.paletteMask 7) e
  | .wrbTransPen4 _ => isWordOf cfg (.transPen 4) e
  | .wrbTransPen5 _ => isWordOf cfg (.transPen 5) e
  | .wrbTransPen6 _ => isWordOf cfg (.transPen 6) e
  | .wrbTransPen7 _ => isWordOf cfg (.transPen 7) e
  | .wrbTransMask4 _ => isWordOf cfg (.transMask 4) e
  | .wrbTransMask5 _ => isWordOf cfg (.transMask 5) e
  | .wrbTransMask6 _ => isWordOf cfg (.transMask 6) e
  | .wrbTransMask7 _ => isWordOf cfg (.transMask 7) e
  | .wrUndefinedIndex q _ _ => isWord q e
  | .goFillAll _ => isWordOf cfg .start e
  | .goFillFromXY _ => isWordOf cfg .start e
  | .goFillRect _ => isWordOf cfg .start e
  | .goFillBand _ => isWordOf cfg .start e
  | .goHline _ => isWordOf cfg .start e
  | .goVline _ => isWordOf cfg .start e
  | .goRomDraw _ => isWordOf cfg .start e
  | .goUnknown _ _ => isWordOf cfg .start e
  | .hdr _ _ => isStream 8 e
  | .next => isStream 3 e
  | .draw _ _ => isStream (3 + a + p) e
  | .copy _ ps => isStream (3 + a + (ps.length + 1) * p) e
  | .skip _ => isStream (3 + a) e
  | .argsz _ => isStream 7 e
  | .pensz _ => isStream 6 e
  | .unk _ => isStream 3 e
  | .stop => isStream 3 e

/-- Whatever the configuration and the operand sizes: if the instruction has an encoding, it has its row's format. -/
def EncodedForm.Statement (i : Instr) : Prop :=
  ∀ (cfg : Config) (a p : Nat) (e : Encoding), encode cfg a p i = some e → EncodedForm.format cfg a p i e = true

theorem encodeReg_form {cfg : Config} {p : PortPair} {r : Reg} {v : BitVec 10} {e : Encoding}
    (h : encodeReg cfg p r v = some e) : isWordOf cfg r e = true := by
  obtain ⟨q, hq, rfl⟩ := Option.map_eq_some_iff.1 h
  simp [isWordOf, Config.place_sound hq]

theorem encodeStart_form {cfg : Config} {c : BitVec 2} {k : Option Byte} {e : Encoding}
    (h : encodeStart cfg c k = some e) : isWordOf cfg .start e = true := by
  unfold encodeStart at h
  split at h
  · cases h
    simp [isWordOf, Config.place_sound ‹_›]
  · cases h

theorem encodeOp_form {cfg : Config} {o : Operation} {bs : List Bool} {e : Encoding} {n : Nat}
    (h : encodeOp cfg o bs = some e) (hn : 3 + bs.length = n) : isStream n e = true := by
  obtain ⟨op, -, rfl⟩ := Option.map_eq_some_iff.1 h
  simp [isStream, ← hn]

theorem pens_length (p : Nat) (ps : List Byte) :
    (ps.flatMap (fun c => fieldBits p c.toNat)).length = ps.length * p := by
  induction ps with
  | nil => simp
  | cons c ps ih => simp only [List.flatMap_cons, List.length_append, ih, fieldBits_length, List.length_cons]; ring

theorem EncodedForm.sel (q : PortPair) (b : Byte) : EncodedForm.Statement (.sel q b) := fun _ _ _ _ h => by
  cases h; simp [EncodedForm.format]
theorem EncodedForm.app (q : PortPair) (d : Byte) : EncodedForm.Statement (.app q d) := fun _ _ _ _ h => by
  cases h; simp [EncodedForm.format]
theorem EncodedForm.wrDestLayer (v : BitVec 10) : EncodedForm.Statement (.wrDestLayer v) := fun _ _ _ _ h => encodeReg_form h
theorem EncodedForm.wrFlip (v : BitVec 10) : EncodedForm.Statement (.wrFlip v) := fun _ _ _ _ h => encodeReg_form h
theorem EncodedForm.wrBlitX (v : BitVec 10) : EncodedForm.Statement (.wrBlitX v) := fun _ _ _ _ h => encodeReg_form h
theorem EncodedForm.wrBlitY (v : BitVec 10) : EncodedForm.Statement (.wrBlitY v) := fun _ _ _ _ h => encodeReg_form h
theorem EncodedForm.wrRectWidth (v : BitVec 10) : EncodedForm.Statement (.wrRectWidth v) := fun _ _ _ _ h => encodeReg_form h
theorem EncodedForm.wrRectHeight (v : BitVec 10) : EncodedForm.Statement (.wrRectHeight v) := fun _ _ _ _ h => encodeReg_form h
theorem EncodedForm.wrLineLength (v : BitVec 10) : EncodedForm.Statement (.wrLineLength v) := fun _ _ _ _ h => encodeReg_form h
theorem EncodedForm.wrPen (v : BitVec 10) : EncodedForm.Statement (.wrPen v) := fun _ _ _ _ h => encodeReg_form h
theorem EncodedForm.wrPenMode (v : BitVec 10) : EncodedForm.Statement (.wrPenMode v) := fun _ _ _ _ h => encodeReg_form h
theorem EncodedForm.wrPenMask (v : BitVec 10) : EncodedForm.Statement (.wrPenMask v) := fun _ _ _ _ h => encodeReg_form h
theorem EncodedForm.wrClipX (v : BitVec 10) : EncodedForm.Statement (.wrClipX v) := fun _ _ _ _ h => encodeReg_form h
theorem EncodedForm.wrClipY (v : BitVec 10) : EncodedForm.Statement (.wrClipY v) := fun _ _ _ _ h => encodeReg_form h
theorem EncodedForm.wrClipWidth (v : BitVec 10) : EncodedForm.Statement (.wrClipWidth v) := fun _ _ _ _ h => encodeReg_form h
theorem EncodedForm.wrClipHeight (v : BitVec 10) : EncodedForm.Statement (.wrClipHeight v) := fun _ _ _ _ h => encodeReg_form h
theorem EncodedForm.wrClipCtrl (v : BitVec 10) : EncodedForm.Statement (.wrClipCtrl v) := fun _ _ _ _ h => encodeReg_form h
theorem EncodedForm.wrAddrLo (v : BitVec 10) : EncodedForm.Statement (.wrAddrLo v) := fun _ _ _ _ h => encodeReg_form h
theorem EncodedForm.wrAddrMid (v : BitVec 10) : EncodedForm.Statement (.wrAddrMid v) := fun _ _ _ _ h => encodeReg_form h
theorem EncodedForm.wrAddrHi (v : BitVec 10) : EncodedForm.Statement (.wrAddrHi v) := fun _ _ _ _ h => encodeReg_form h
theorem EncodedForm.wrPriority (v : BitVec 10) : EncodedForm.Statement (.wrPriority v) := fun _ _ _ _ h => encodeReg_form h
theorem EncodedForm.wrLayerEnable (v : BitVec 10) : EncodedForm.Statement (.wrLayerEnable v) := fun _ _ _ _ h => encodeReg_form h
theorem EncodedForm.wrBgColor (v : BitVec 10) : EncodedForm.Statement (.wrBgColor v) := fun _ _ _ _ h => encodeReg_form h
theorem EncodedForm.wrScrollX0 (v : BitVec 10) : EncodedForm.Statement (.wrScrollX0 v) := fun _ _ _ _ h => encodeReg_form h
theorem EncodedForm.wrScrollX1 (v : BitVec 10) : EncodedForm.Statement (.wrScrollX1 v) := fun _ _ _ _ h => encodeReg_form h
theorem EncodedForm.wrScrollX2 (v : BitVec 10) : EncodedForm.Statement (.wrScrollX2 v) := fun _ _ _ _ h => encodeReg_form h
theorem EncodedForm.wrScrollX3 (v : BitVec 10) : EncodedForm.Statement (.wrScrollX3 v) := fun _ _ _ _ h => encodeReg_form h
theorem EncodedForm.wrScrollY0 (v : BitVec 10) : EncodedForm.Statement (.wrScrollY0 v) := fun _ _ _ _ h => encodeReg_form h
theorem EncodedForm.wrScrollY1 (v : BitVec 10) : EncodedForm.Statement (.wrScrollY1 v) := fun _ _ _ _ h => encodeReg_form h
theorem EncodedForm.wrScrollY2 (v : BitVec 10) : EncodedForm.Statement (.wrScrollY2 v) := fun _ _ _ _ h => encodeReg_form h
theorem EncodedForm.wrScrollY3 (v : BitVec 10) : EncodedForm.Statement (.wrScrollY3 v) := fun _ _ _ _ h => encodeReg_form h
theorem EncodedForm.wrPaletteBase0 (v : BitVec 10) : EncodedForm.Statement (.wrPaletteBase0 v) := fun _ _ _ _ h => encodeReg_form h
theorem EncodedForm.wrPaletteBase1 (v : BitVec 10) : EncodedForm.Statement (.wrPaletteBase1 v) := fun _ _ _ _ h => encodeReg_form h
theorem EncodedForm.wrPaletteBase2 (v : BitVec 10) : EncodedForm.Statement (.wrPaletteBase2 v) := fun _ _ _ _ h => encodeReg_form h
theorem EncodedForm.wrPaletteBase3 (v : BitVec 10) : EncodedForm.Statement (.wrPaletteBase3 v) := fun _ _ _ _ h => encodeReg_form h
theorem EncodedForm.wrPaletteMask0 (v : BitVec 10) : EncodedForm.Statement (.wrPaletteMask0 v) := fun _ _ _ _ h => encodeReg_form h
theorem EncodedForm.wrPaletteMask1 (v : BitVec 10) : EncodedForm.Statement (.wrPaletteMask1 v) := fun _ _ _ _ h => encodeReg_form h
theorem EncodedForm.wrPaletteMask2 (v : BitVec 10) : EncodedForm.Statement (.wrPaletteMask2 v) := fun _ _ _ _ h => encodeReg_form h
theorem EncodedForm.wrPaletteMask3 (v : BitVec 10) : EncodedForm.Statement (.wrPaletteMask3 v) := fun _ _ _ _ h => encodeReg_form h
theorem EncodedForm.wrTransPen0 (v : BitVec 10) : EncodedForm.Statement (.wrTransPen0 v) := fun _ _ _ _ h => encodeReg_form h
theorem EncodedForm.wrTransPen1 (v : BitVec 10) : EncodedForm.Statement (.wrTransPen1 v) := fun _ _ _ _ h => encodeReg_form h
theorem EncodedForm.wrTransPen2 (v : BitVec 10) : EncodedForm.Statement (.wrTransPen2 v) := fun _ _ _ _ h => encodeReg_form h
theorem EncodedForm.wrTransPen3 (v : BitVec 10) : EncodedForm.Statement (.wrTransPen3 v) := fun _ _ _ _ h => encodeReg_form h
theorem EncodedForm.wrTransMask0 (v : BitVec 10) : EncodedForm.Statement (.wrTransMask0 v) := fun _ _ _ _ h => encodeReg_form h
theorem EncodedForm.wrTransMask1 (v : BitVec 10) : EncodedForm.Statement (.wrTransMask1 v) := fun _ _ _ _ h => encodeReg_form h
theorem EncodedForm.wrTransMask2 (v : BitVec 10) : EncodedForm.Statement (.wrTransMask2 v) := fun _ _ _ _ h => encodeReg_form h
theorem EncodedForm.wrTransMask3 (v : BitVec 10) : EncodedForm.Statement (.wrTransMask3 v) := fun _ _ _ _ h => encodeReg_form h
theorem EncodedForm.wrbPriority2 (v : BitVec 10) : EncodedForm.Statement (.wrbPriority2 v) := fun _ _ _ _ h => encodeReg_form h
theorem EncodedForm.wrbLayerEnable2 (v : BitVec 10) : EncodedForm.Statement (.wrbLayerEnable2 v) := fun _ _ _ _ h => encodeReg_form h
theorem EncodedForm.wrbBgColor2 (v : BitVec 10) : EncodedForm.Statement (.wrbBgColor2 v) := fun _ _ _ _ h => encodeReg_form h
theorem EncodedForm.wrbScrollX4 (v : BitVec 10) : EncodedForm.Statement (.wrbScrollX4 v) := fun _ _ _ _ h => encodeReg_form h
theorem EncodedForm.wrbScrollX5 (v : BitVec 10) : EncodedForm.Statement (.wrbScrollX5 v) := fun _ _ _ _ h => encodeReg_form h
theorem EncodedForm.wrbScrollX6 (v : BitVec 10) : EncodedForm.Statement (.wrbScrollX6 v) := fun _ _ _ _ h => encodeReg_form h
theorem EncodedForm.wrbScrollX7 (v : BitVec 10) : EncodedForm.Statement (.wrbScrollX7 v) := fun _ _ _ _ h => encodeReg_form h
theorem EncodedForm.wrbScrollY4 (v : BitVec 10) : EncodedForm.Statement (.wrbScrollY4 v) := fun _ _ _ _ h => encodeReg_form h
theorem EncodedForm.wrbScrollY5 (v : BitVec 10) : EncodedForm.Statement (.wrbScrollY5 v) := fun _ _ _ _ h => encodeReg_form h
theorem EncodedForm.wrbScrollY6 (v : BitVec 10) : EncodedForm.Statement (.wrbScrollY6 v) := fun _ _ _ _ h => encodeReg_form h
theorem EncodedForm.wrbScrollY7 (v : BitVec 10) : EncodedForm.Statement (.wrbScrollY7 v) := fun _ _ _ _ h => encodeReg_form h
theorem EncodedForm.wrbPaletteBase4 (v : BitVec 10) : EncodedForm.Statement (.wrbPaletteBase4 v) := fun _ _ _ _ h => encodeReg_form h
theorem EncodedForm.wrbPaletteBase5 (v : BitVec 10) : EncodedForm.Statement (.wrbPaletteBase5 v) := fun _ _ _ _ h => encodeReg_form h
theorem EncodedForm.wrbPaletteBase6 (v : BitVec 10) : EncodedForm.Statement (.wrbPaletteBase6 v) := fun _ _ _ _ h => encodeReg_form h
theorem EncodedForm.wrbPaletteBase7 (v : BitVec 10) : EncodedForm.Statement (.wrbPaletteBase7 v) := fun _ _ _ _ h => encodeReg_form h
theorem EncodedForm.wrbPaletteMask4 (v : BitVec 10) : EncodedForm.Statement (.wrbPaletteMask4 v) := fun _ _ _ _ h => encodeReg_form h
theorem EncodedForm.wrbPaletteMask5 (v : BitVec 10) : EncodedForm.Statement (.wrbPaletteMask5 v) := fun _ _ _ _ h => encodeReg_form h
theorem EncodedForm.wrbPaletteMask6 (v : BitVec 10) : EncodedForm.Statement (.wrbPaletteMask6 v) := fun _ _ _ _ h => encodeReg_form h
theorem EncodedForm.wrbPaletteMask7 (v : BitVec 10) : EncodedForm.Statement (.wrbPaletteMask7 v) := fun _ _ _ _ h => encodeReg_form h
theorem EncodedForm.wrbTransPen4 (v : BitVec 10) : EncodedForm.Statement (.wrbTransPen4 v) := fun _ _ _ _ h => encodeReg_form h
theorem EncodedForm.wrbTransPen5 (v : BitVec 10) : EncodedForm.Statement (.wrbTransPen5 v) := fun _ _ _ _ h => encodeReg_form h
theorem EncodedForm.wrbTransPen6 (v : BitVec 10) : EncodedForm.Statement (.wrbTransPen6 v) := fun _ _ _ _ h => encodeReg_form h
theorem EncodedForm.wrbTransPen7 (v : BitVec 10) : EncodedForm.Statement (.wrbTransPen7 v) := fun _ _ _ _ h => encodeReg_form h
theorem EncodedForm.wrbTransMask4 (v : BitVec 10) : EncodedForm.Statement (.wrbTransMask4 v) := fun _ _ _ _ h => encodeReg_form h
theorem EncodedForm.wrbTransMask5 (v : BitVec 10) : EncodedForm.Statement (.wrbTransMask5 v) := fun _ _ _ _ h => encodeReg_form h
theorem EncodedForm.wrbTransMask6 (v : BitVec 10) : EncodedForm.Statement (.wrbTransMask6 v) := fun _ _ _ _ h => encodeReg_form h
theorem EncodedForm.wrbTransMask7 (v : BitVec 10) : EncodedForm.Statement (.wrbTransMask7 v) := fun _ _ _ _ h => encodeReg_form h
theorem EncodedForm.wrUndefinedIndex (q : PortPair) (i : BitVec 6) (v : BitVec 10) :
    EncodedForm.Statement (.wrUndefinedIndex q i v) := fun _ _ _ _ h => by
  simp only [encode, Option.ite_none_right_eq_some] at h
  obtain ⟨-, h⟩ := h
  cases h; simp [EncodedForm.format, isWord]
theorem EncodedForm.goFillAll (c : BitVec 2) : EncodedForm.Statement (.goFillAll c) := fun _ _ _ _ h => encodeStart_form h
theorem EncodedForm.goFillFromXY (c : BitVec 2) : EncodedForm.Statement (.goFillFromXY c) := fun _ _ _ _ h => encodeStart_form h
theorem EncodedForm.goFillRect (c : BitVec 2) : EncodedForm.Statement (.goFillRect c) := fun _ _ _ _ h => encodeStart_form h
theorem EncodedForm.goFillBand (c : BitVec 2) : EncodedForm.Statement (.goFillBand c) := fun _ _ _ _ h => encodeStart_form h
theorem EncodedForm.goHline (c : BitVec 2) : EncodedForm.Statement (.goHline c) := fun _ _ _ _ h => encodeStart_form h
theorem EncodedForm.goVline (c : BitVec 2) : EncodedForm.Statement (.goVline c) := fun _ _ _ _ h => encodeStart_form h
theorem EncodedForm.goRomDraw (c : BitVec 2) : EncodedForm.Statement (.goRomDraw c) := fun _ _ _ _ h => encodeStart_form h
theorem EncodedForm.goUnknown (c : BitVec 2) (code : Byte) : EncodedForm.Statement (.goUnknown c code) := fun _ _ _ _ h => by
  simp only [encode, Option.ite_none_right_eq_some] at h
  exact encodeStart_form h.2
theorem EncodedForm.hdr (hp ha : BitVec 4) : EncodedForm.Statement (.hdr hp ha) := fun _ _ _ _ h => by
  cases h; simp [EncodedForm.format, isStream]
theorem EncodedForm.next : EncodedForm.Statement .next := fun _ _ _ _ h => encodeOp_form h (by simp)
theorem EncodedForm.draw (n : Nat) (c : Byte) : EncodedForm.Statement (.draw n c) := fun _ _ _ _ h =>
  encodeOp_form h (by simp; omega)
theorem EncodedForm.copy (p0 : Byte) (ps : List Byte) : EncodedForm.Statement (.copy p0 ps) := fun _ _ _ _ h =>
  encodeOp_form h (by rw [List.length_append, fieldBits_length, pens_length, List.length_cons]; omega)
theorem EncodedForm.skip (n : Nat) : EncodedForm.Statement (.skip n) := fun _ _ _ _ h => encodeOp_form h (by simp)
theorem EncodedForm.argsz (f : BitVec 4) : EncodedForm.Statement (.argsz f) := fun _ _ _ _ h => encodeOp_form h (by simp)
theorem EncodedForm.pensz (f : BitVec 3) : EncodedForm.Statement (.pensz f) := fun _ _ _ _ h => encodeOp_form h (by simp)
theorem EncodedForm.unk (op : BitVec 3) : EncodedForm.Statement (.unk op) := fun _ _ _ _ h => by
  simp only [encode, Option.ite_none_right_eq_some] at h
  obtain ⟨-, h⟩ := h
  cases h; simp [EncodedForm.format, isStream]
theorem EncodedForm.stop : EncodedForm.Statement .stop := fun _ _ _ _ h => encodeOp_form h (by simp)

end Sys2Proof.Laws
end

