-- ==== Sys2Proof/Tests/Slice0.lean ====
section
/-! SUPPORT. Tests of the model's own: ill-formed terms refused, words written out bit by bit decoded, single steps of the
spec's test vectors (spec/95_test_vectors.md, T<n>), and a witness for the hypotheses of every statement that has some. -/

namespace Sys2Proof.Tests

open Sys2Proof Sys2Proof.Machine

/-! ## States the tests use -/

/-- A part of the next state, if there is one. -/
def part {α : Type} (r : Result) (f : State → α) : Option α :=
  match r with
  | .next t => some (f t)
  | .fault _ => none
  | .refused _ => none

/-- The default configuration with a ROM. -/
def withRom (rom : List Byte) : Config := { Config.default with rom := rom }

/-- The default configuration with eight layers. -/
def eight : Config := { Config.default with eightLayer := true }

/-- A fresh device that the host asks one thing. -/
def asked (e : HostEntry) : State := { State.reset with inbox := [e] }

/-- A fresh device with other registers. -/
def having (r : RegisterFile) : State := { State.reset with regs := r }

/-- The common start registers of the bitstream vectors (T40): layer 0, pen A0, position (10, 20). -/
def drawRegs : RegisterFile :=
  { RegisterFile.reset with destLayerMask := 0x0001, pen := 0xA0, blitX := 10, blitY := 20 }

/-- Working values in front of a command. -/
def working (cur argSize penSize : Nat) : Working :=
  { cursor := { cur := cur, overrunLogged := false }, penSize := penSize, argSize := argSize,
    x := 10, y := 20, x0 := 10, xdir := .inc, ydir := .inc }

/-- The ROM of T40: HDR pen=2 arg=3; DRAW n=5 p=3; STOP. -/
def romT40 : List Byte := [0x12, 0x37, 0xE0]

/-- T40 in front of its header. -/
def atHeader : State :=
  { State.fresh (withRom romT40) with regs := drawRegs, decoder := .header { cur := 0, overrunLogged := false } }

/-- T40 in front of its DRAW. -/
def atDraw : State :=
  { State.fresh (withRom romT40) with regs := drawRegs, decoder := .running (working 8 3 2) }

/-- T40 in front of its STOP. -/
def atStop : State := { atDraw with decoder := .running (working 16 3 2) }

/-- An invocation in front of a ROM of ones, in front of a command past its end. -/
def pastEnd (table : Vector Operation 8) : State :=
  { State.fresh { withRom [0xFF] with commandTable := table } with decoder := .running (working 8 1 1) }

/-- CT_REV of T53: opcode 7 is NextLine. -/
def ctRev : Vector Operation 8 :=
  #v[.stop, .unknown, .changePenSize, .changeArgSize, .skip, .copyRun, .drawRun, .nextLine]

/-- T60's clip rectangle with given enables. -/
def clipT60 (k : Byte) : Clip := { x := 16, y := 8, width := 31, height := 15, ctrl := k }

/-! ## Well-formedness: each check refuses an ill-formed term -/

/-- A configuration without layouts and start codes. -/
def bare : Config := { eight with layoutA := [], layoutB := [], startMap := [] }

/-- A register that pair A does not reach has no write (R106, R10). -/
theorem test_wellFormed_refuses_unlaid_shared :
    ([.wrDestLayer 1, .wrFlip 1, .wrBlitX 1, .wrBlitY 1,
     .wrRectWidth 1, .wrRectHeight 1, .wrLineLength 1, .wrPen 1,
     .wrPenMode 1, .wrPenMask 1, .wrClipX 1, .wrClipY 1,
     .wrClipWidth 1, .wrClipHeight 1, .wrClipCtrl 1, .wrAddrLo 1,
     .wrAddrMid 1, .wrAddrHi 1, .wrPriority 1, .wrLayerEnable 1,
     .wrBgColor 1] : List Instr).all
      (fun i => !i.wellFormed bare 1 1) = true := by decide

theorem test_wellFormed_refuses_unlaid_banks :
    ([.wrScrollX0 1, .wrScrollX1 1, .wrScrollX2 1, .wrScrollX3 1,
     .wrScrollY0 1, .wrScrollY1 1, .wrScrollY2 1, .wrScrollY3 1,
     .wrPaletteBase0 1, .wrPaletteBase1 1, .wrPaletteBase2 1, .wrPaletteBase3 1,
     .wrPaletteMask0 1, .wrPaletteMask1 1, .wrPaletteMask2 1, .wrPaletteMask3 1,
     .wrTransPen0 1, .wrTransPen1 1, .wrTransPen2 1, .wrTransPen3 1,
     .wrTransMask0 1, .wrTransMask1 1, .wrTransMask2 1, .wrTransMask3 1] : List Instr).all
      (fun i => !i.wellFormed bare 1 1) = true := by decide

/-- Without EIGHT_LAYER pair B has no register (R134). -/
theorem test_wellFormed_refuses_pair_b_of_four_layers :
    ([.wrbPriority2 1, .wrbLayerEnable2 1, .wrbBgColor2 1, .wrbScrollX4 1,
     .wrbScrollX5 1, .wrbScrollX6 1, .wrbScrollX7 1, .wrbScrollY4 1,
     .wrbScrollY5 1, .wrbScrollY6 1, .wrbScrollY7 1, .wrbPaletteBase4 1,
     .wrbPaletteBase5 1, .wrbPaletteBase6 1, .wrbPaletteBase7 1, .wrbPaletteMask4 1,
     .wrbPaletteMask5 1, .wrbPaletteMask6 1, .wrbPaletteMask7 1, .wrbTransPen4 1,
     .wrbTransPen5 1, .wrbTransPen6 1, .wrbTransPen7 1, .wrbTransMask4 1,
     .wrbTransMask5 1, .wrbTransMask6 1, .wrbTransMask7 1] : List Instr).all
      (fun i => !i.wellFormed Config.default 1 1) = true := by decide

theorem test_wellFormed_refuses_unlaid_pair_b :
    ([.wrbPriority2 1, .wrbLayerEnable2 1, .wrbBgColor2 1, .wrbScrollX4 1,
     .wrbScrollX5 1, .wrbScrollX6 1, .wrbScrollX7 1, .wrbScrollY4 1,
     .wrbScrollY5 1, .wrbScrollY6 1, .wrbScrollY7 1, .wrbPaletteBase4 1,
     .wrbPaletteBase5 1, .wrbPaletteBase6 1, .wrbPaletteBase7 1, .wrbPaletteMask4 1,
     .wrbPaletteMask5 1, .wrbPaletteMask6 1, .wrbPaletteMask7 1, .wrbTransPen4 1,
     .wrbTransPen5 1, .wrbTransPen6 1, .wrbTransPen7 1, .wrbTransMask4 1,
     .wrbTransMask5 1, .wrbTransMask6 1, .wrbTransMask7 1] : List Instr).all
      (fun i => !i.wellFormed bare 1 1) = true := by decide

/-- A start operation without a code, and one without START, has no encoding (R108). -/
theorem test_wellFormed_refuses_unmapped_starts :
    ([.goFillAll 0, .goFillFromXY 0, .goFillRect 0, .goFillBand 0,
     .goHline 0, .goVline 0, .goRomDraw 0] : List Instr).all
      (fun i => !i.wellFormed { Config.default with startMap := [] } 1 1) = true := by decide

theorem test_wellFormed_refuses_starts_without_START :
    ([.goFillAll 0, .goFillFromXY 0, .goFillRect 0, .goFillBand 0,
     .goHline 0, .goVline 0, .goRomDraw 0, .goUnknown 0 0xEE] : List Instr).all
      (fun i => !i.wellFormed { Config.default with layoutA := [] } 1 1) = true := by decide

theorem test_wellFormed_refuses_known_start_code :
    ([.goUnknown 0 0x01, .goUnknown 3 0x10] : List Instr).all
      (fun i => !i.wellFormed Config.default 1 1) = true := by decide

theorem test_wellFormed_refuses_defined_index :
    ([.wrUndefinedIndex .a 0x02 1, .wrUndefinedIndex .b 0x13 1] : List Instr).all
      (fun i => !i.wellFormed eight 1 1) = true := by decide

theorem test_wellFormed_refuses_absent_operations :
    ([.draw 0 0, .copy 0 [], .skip 0, .argsz 0,
     .pensz 0, .unk 6, .stop] : List Instr).all
      (fun i => !i.wellFormed { Config.default with commandTable := Vector.replicate 8 .nextLine } 1 1) = true := by decide

theorem test_wellFormed_refuses_absent_next :
    ([.next] : List Instr).all
      (fun i => !i.wellFormed { Config.default with commandTable := Vector.replicate 8 .stop } 1 1) = true := by decide

/-- N must fit in arg_size bits, a pen in pen_size bits (R105). -/
theorem test_wellFormed_refuses_long_runs :
    ([.draw 8 0, .copy 0 [0, 0, 0, 0, 0, 0, 0, 0], .skip 8] : List Instr).all
      (fun i => !i.wellFormed Config.default 3 2) = true := by decide

theorem test_wellFormed_refuses_wide_pens :
    ([.draw 0 4, .copy 4 [], .copy 0 [1, 4]] : List Instr).all
      (fun i => !i.wellFormed Config.default 3 2) = true := by decide

theorem test_wellFormed_refuses_size_zero :
    ([.draw 0 0, .copy 0 [], .skip 0] : List Instr).all
      (fun i => !i.wellFormed Config.default 0 1) = true := by decide

theorem test_wellFormed_refuses_size_nine :
    ([.draw 0 0, .copy 0 [], .skip 0] : List Instr).all
      (fun i => !i.wellFormed Config.default 9 1) = true := by decide

theorem test_wellFormed_refuses_pen_size_zero :
    ([.draw 0 0, .copy 0 []] : List Instr).all
      (fun i => !i.wellFormed Config.default 1 0) = true := by decide

theorem test_wellFormed_refuses_pen_size_five :
    ([.draw 0 0, .copy 0 []] : List Instr).all
      (fun i => !i.wellFormed Config.default 1 5) = true := by decide

theorem test_wellFormed_refuses_other_opcodes_as_UNK :
    ([.unk 0, .unk 7] : List Instr).all
      (fun i => !i.wellFormed Config.default 1 1) = true := by decide

/-! ## Decoding: every row, from words written out from its encoding (30_encoding.md, opcode_table.json) -/

theorem test_decode_pair_a_shared_low :
    ([(0b11_000000_01000010, .wrDestLayer 0x342), (0b11_000001_01011100, .wrFlip 0x35C),
     (0b11_000010_11110010, .wrBlitX 0x3F2), (0b11_000011_10100111, .wrBlitY 0x3A7),
     (0b11_000100_00001000, .wrRectWidth 0x308), (0b10_000101_11000111, .wrRectHeight 0x2C7),
     (0b01_000110_10100111, .wrLineLength 0x1A7), (0b01_000111_11100111, .wrPen 0x1E7),
     (0b01_001000_00011101, .wrPenMode 0x11D), (0b10_001001_01111001, .wrPenMask 0x279),
     (0b01_001010_01100010, .wrClipX 0x162)] : List (BitVec 16 × Instr)).all
      (fun e => decodeWord Config.default .a e.1 == e.2) = true := by decide

theorem test_decode_pair_a_shared_high :
    ([(0b11_001011_00011011, .wrClipY 0x31B), (0b11_001100_01000000, .wrClipWidth 0x340),
     (0b01_001101_10111100, .wrClipHeight 0x1BC), (0b01_001110_01101001, .wrClipCtrl 0x169),
     (0b10_001111_00101111, .wrAddrLo 0x22F), (0b10_010000_00101001, .wrAddrMid 0x229),
     (0b01_010001_00100100, .wrAddrHi 0x124), (0b11_010011_10011111, .wrPriority 0x39F),
     (0b10_010100_00100001, .wrLayerEnable 0x221), (0b01_010101_00000001, .wrBgColor 0x101)] : List (BitVec 16 × Instr)).all
      (fun e => decodeWord Config.default .a e.1 == e.2) = true := by decide

theorem test_decode_pair_a_banks_low :
    ([(0b01_100000_00110110, .wrScrollX0 0x136), (0b01_100001_11110110, .wrScrollX1 0x1F6),
     (0b01_100010_11100000, .wrScrollX2 0x1E0), (0b01_100011_01001011, .wrScrollX3 0x14B),
     (0b10_100100_11110111, .wrScrollY0 0x2F7), (0b01_100101_10001011, .wrScrollY1 0x18B),
     (0b11_100110_10100001, .wrScrollY2 0x3A1), (0b01_100111_00101111, .wrScrollY3 0x12F),
     (0b11_101000_00110011, .wrPaletteBase0 0x333), (0b10_101001_01001101, .wrPaletteBase1 0x24D),
     (0b01_101010_01011101, .wrPaletteBase2 0x15D), (0b10_101011_00101011, .wrPaletteBase3 0x22B)] : List (BitVec 16 × Instr)).all
      (fun e => decodeWord Config.default .a e.1 == e.2) = true := by decide

theorem test_decode_pair_a_banks_high :
    ([(0b01_101100_01000100, .wrPaletteMask0 0x144), (0b01_101101_01010101, .wrPaletteMask1 0x155),
     (0b10_101110_11010010, .wrPaletteMask2 0x2D2), (0b11_101111_10010111, .wrPaletteMask3 0x397),
     (0b01_110000_10011001, .wrTransPen0 0x199), (0b11_110001_10110110, .wrTransPen1 0x3B6),
     (0b10_110010_00010001, .wrTransPen2 0x211), (0b10_110011_01011011, .wrTransPen3 0x25B),
     (0b10_110100_01111100, .wrTransMask0 0x27C), (0b11_110101_01010001, .wrTransMask1 0x351),
     (0b01_110110_01111100, .wrTransMask2 0x17C), (0b10_110111_10110101, .wrTransMask3 0x2B5)] : List (BitVec 16 × Instr)).all
      (fun e => decodeWord Config.default .a e.1 == e.2) = true := by decide

theorem test_decode_pair_b_shared_and_banks_low :
    ([(0b01_010011_00001111, .wrbPriority2 0x10F), (0b10_010100_11111010, .wrbLayerEnable2 0x2FA),
     (0b01_010101_11110100, .wrbBgColor2 0x1F4), (0b11_100000_01011100, .wrbScrollX4 0x35C),
     (0b10_100001_00000101, .wrbScrollX5 0x205), (0b11_100010_11001010, .wrbScrollX6 0x3CA),
     (0b10_100011_01011110, .wrbScrollX7 0x25E), (0b10_100100_10010101, .wrbScrollY4 0x295),
     (0b01_100101_01110100, .wrbScrollY5 0x174), (0b01_100110_10110110, .wrbScrollY6 0x1B6),
     (0b01_100111_10100000, .wrbScrollY7 0x1A0), (0b01_101000_00011111, .wrbPaletteBase4 0x11F),
     (0b01_101001_11101110, .wrbPaletteBase5 0x1EE), (0b10_101010_01011001, .wrbPaletteBase6 0x259)] : List (BitVec 16 × Instr)).all
      (fun e => decodeWord eight .b e.1 == e.2) = true := by decide

theorem test_decode_pair_b_banks_high :
    ([(0b11_101011_01011011, .wrbPaletteBase7 0x35B), (0b11_101100_01000001, .wrbPaletteMask4 0x341),
     (0b10_101101_00011100, .wrbPaletteMask5 0x21C), (0b11_101110_11000000, .wrbPaletteMask6 0x3C0),
     (0b10_101111_11011101, .wrbPaletteMask7 0x2DD), (0b10_110000_00001010, .wrbTransPen4 0x20A),
     (0b10_110001_11110011, .wrbTransPen5 0x2F3), (0b01_110010_00110110, .wrbTransPen6 0x136),
     (0b10_110011_10000100, .wrbTransPen7 0x284), (0b11_110100_01011101, .wrbTransMask4 0x35D),
     (0b01_110101_01011000, .wrbTransMask5 0x158), (0b10_110110_11101101, .wrbTransMask6 0x2ED),
     (0b11_110111_10001100, .wrbTransMask7 0x38C)] : List (BitVec 16 × Instr)).all
      (fun e => decodeWord eight .b e.1 == e.2) = true := by decide

theorem test_decode_starts :
    ([(0b00_010010_00000001, .goFillAll 0), (0b01_010010_00000010, .goFillFromXY 1),
     (0b10_010010_00000011, .goFillRect 2), (0b11_010010_00000100, .goFillBand 3),
     (0b00_010010_00000101, .goHline 0), (0b01_010010_00000110, .goVline 1),
     (0b10_010010_00010000, .goRomDraw 2), (0b10_010010_11101110, .goUnknown 2 0xEE),
     (0b00_010010_00000000, .goUnknown 0 0x00)] : List (BitVec 16 × Instr)).all
      (fun e => decodeWord Config.default .a e.1 == e.2) = true := by decide

theorem test_decode_undefined_indices_a :
    ([(0b00_011111_00000000, .wrUndefinedIndex .a 0x1F 0), (0b10_111000_10101010, .wrUndefinedIndex .a 0x38 0x2AA)] : List (BitVec 16 × Instr)).all
      (fun e => decodeWord Config.default .a e.1 == e.2) = true := by decide

theorem test_decode_undefined_indices_b :
    ([(0b00_010010_00010000, .wrUndefinedIndex .b 0x12 0x10), (0b01_000000_00000001, .wrUndefinedIndex .b 0x00 0x101)] : List (BitVec 16 × Instr)).all
      (fun e => decodeWord eight .b e.1 == e.2) = true := by decide

/-- The operands of the bitstream vectors' bit layouts (T40 to T46, T53): arg_size, pen_size, the bits as ROM bytes. -/
theorem test_decode_stream :
    ([((3, 2), [0b001_101_11], .draw 5 3), ((2, 4), [0b010_10_000, 0b1_0010_111, 0b1_0000000], .copy 1 [2, 15]),
      ((1, 1), [0b000_00000], .next), ((4, 1), [0b011_1001_0], .skip 9), ((1, 1), [0b100_0101_0], .argsz 5),
      ((6, 1), [0b101_011_00], .pensz 3), ((1, 1), [0b110_00000], .unk 6), ((1, 1), [0b111_00000], .stop),
      ((6, 4), [0b001_10000, 0b1_1001_000], .draw 33 9), ((8, 4), [0b001_00000, 0b001_1001_1], .draw 1 9)]
      : List ((Nat × Nat) × List Byte × Instr)).all
      (fun e => (decodeCommand (withRom e.2.1) e.1.1 e.1.2 (BitCursor.port ⟨0, false⟩)).1 == e.2.2) = true := by decide

/-- T46's header: pen nibble first. -/
theorem test_decode_header : (decodeHeader (withRom [0b0101_1011]) (BitCursor.port ⟨0, false⟩)).1 = .hdr 5 11 := by decide

/-- The byte on the select port is SEL, the byte on the apply port is APP (R131, R132). -/
theorem test_decode_select_apply :
    (match fetch (asked (.select .a 0b11_000101)) with | .instr i _ => some i | .done _ => none | .idle => none) =
      some (.sel .a 0xC5) ∧
    (match fetch (asked (.apply .b 0b00100000)) with | .instr i _ => some i | .done _ => none | .idle => none) =
      some (.app .b 0x20) := by decide

/-- CT_REV (T53): the same bits mean the reverse table's operations. -/
theorem test_decode_other_command_table :
    (decodeCommand { withRom [0b110_01_10_0] with commandTable := ctRev } 2 2 (BitCursor.port ⟨0, false⟩)).1 = .draw 1 2 ∧
    (decodeCommand { withRom [0b000_00000] with commandTable := ctRev } 2 2 (BitCursor.port ⟨0, false⟩)).1 = .stop := by
  decide

/-- A layout is any partial function to the registers (R10): pair A reaches PRIORITY2 and layer 5, RECT_WIDTH has two
indices, and pair B reaches BLIT_X and START. -/
def crossed : Config :=
  { eight with
    layoutA := [(0x00, .priority2), (0x01, .scrollX 5), (0x02, .rectWidth), (0x3F, .rectWidth)]
    layoutB := [(0x00, .blitX), (0x01, .start)] }

theorem test_decode_other_layouts :
    decodeWord crossed .a 0b00_000000_00011011 = .wrbPriority2 0x01B ∧
    decodeWord crossed .a 0b01_000001_00010000 = .wrbScrollX5 0x110 ∧
    decodeWord crossed .a 0b01_111111_11111111 = .wrRectWidth 0x1FF ∧
    decodeWord crossed .b 0b01_000000_00101100 = .wrBlitX 0x12C ∧
    decodeWord crossed .b 0b00_000001_00010000 = .goRomDraw 0 ∧
    decodeWord crossed .b 0b00_010010_00010000 = .wrUndefinedIndex .b 0x12 0x10 := by decide

/-- The lowest index and the row's own pair first, else the other pair (log 24). -/
theorem test_encode_other_layouts :
    encode crossed 1 1 (.wrRectWidth 0x1FF) = some (.word .a 0x42FF) ∧
    encode crossed 1 1 (.wrBlitX 0x12C) = some (.word .b 0x402C) ∧
    encode crossed 1 1 (.wrbPriority2 6) = some (.word .a 0x0006) ∧
    encode crossed 1 1 (.goRomDraw 0) = some (.word .b 0x0110) ∧
    encode crossed 1 1 (.wrBlitY 0) = none := by decide

/-- START on pair B, and PRIORITY2 through pair A of a four-layer device. -/
theorem test_step_other_layouts :
    part (step { State.fresh crossed with inbox := [.wideWrite .b 0x01EE] }) (fun t => (t.diag, t.latchB)) =
      some ([.unknownStart 0xEE], 0x01) ∧
    part (step { State.fresh { crossed with eightLayer := false } with inbox := [.wideWrite .a 0x003B] })
      (fun t => (t.regs.priorityIndex2, t.diag)) = some (0x1B, []) := by decide

/-- The opcode table's words, as the host numbers them. -/
theorem test_decodeTableWord :
    decodeTableWord 16 0x0200 = some (.wrBlitX 0) ∧ decodeTableWord 16 0x1210 = some (.goRomDraw 0) ∧
    decodeTableWord 8 1 = some (.draw 0 0) ∧ decodeTableWord 8 7 = some .stop ∧
    decodeTableWord 8 0xC5 = some (.sel .a 0xC5) ∧ decodeTableWord 24 0 = none := by decide

/-! ## Single steps of the spec's vectors -/

/-- T34 and T37: a field inside the ROM, and one that straddles its end. -/
theorem test_fetch_T34 : fetchField [0x12, 0x34] 8 (BitCursor.port ⟨4, false⟩) = (0x23, ⟨⟨12, false⟩, []⟩) := by decide

theorem test_fetch_T37 : fetchField [0xB4] 6 (BitCursor.port ⟨5, false⟩) = (39, ⟨⟨11, true⟩, [8]⟩) := by decide

/-- T1: the wide write of carry 3 and 0x20 to index 5. -/
theorem test_step_T1 :
    part (step (asked (.wideWrite .a 0xC520))) (fun t => (t.regs.rectHeight, t.latchA)) = some (800, 0xC5) := by decide

/-- T10: the apply byte of the latched BLIT_X. -/
theorem test_step_T10 :
    part (step { asked (.apply .a 0x2C) with latchA := 0x42 }) (fun t => (t.regs.blitX, t.latchA)) = some (300, 0x42) := by
  decide

/-- T14 and T15: FLIP's reserved bits. -/
theorem test_exec_T14 :
    part (exec (.wrFlip 0x00C) State.reset) (fun t => (t.regs.flip, t.diag)) =
      some (⟨false, false, false⟩, [.flipReserved 3]) := by decide

theorem test_exec_T13 :
    part (exec (.wrFlip 0x013) State.reset) (fun t => (t.regs.flip, t.diag)) = some (⟨true, true, true⟩, []) := by decide

/-- T16: the priority field takes bits 4:0 and raises nothing. -/
theorem test_exec_T16 :
    part (exec (.wrPriority 0x03B) State.reset) (fun t => (t.regs.priorityIndex, t.diag)) = some (27, []) := by decide

/-- T20: only bits 7:0 of blit_address are replaced. -/
theorem test_exec_T20 :
    part (exec (.wrAddrLo 0x399) (having { RegisterFile.reset with blitAddress := 0x012345 }))
      (fun t => t.regs.blitAddress) = some 0x012399 := by decide

/-- T27: pair B without EIGHT_LAYER. -/
theorem test_step_T27 :
    part (step { asked (.apply .b 0x05) with latchB := 0x20 }) (fun t => t.diag) =
      some [.undefinedRegister .b 0x20 5] := by decide

/-- T28: SCROLL_X of layer 4 through pair B. -/
theorem test_step_T28 :
    part (step { State.fresh eight with latchB := 0x60, inbox := [.apply .b 0x10] })
      (fun t => (t.regs.scrollX.get 4, t.regs.scrollX.get 0)) = some (272, 0) := by decide

/-- T31 and T32: an unknown start code; HLINE under a carry. -/
theorem test_step_T31 :
    part (step (asked (.wideWrite .a 0x12EE))) (fun t => (t.diag, t.pending)) = some ([.unknownStart 0xEE], 0) := by decide

theorem test_step_T32 :
    part (step (asked (.wideWrite .a 0xD205))) (fun t => (t.regs.blitX, t.pending, t.outputs)) =
      some (1, 1, [.token .direct 0]) := by decide

/-- T39a and T39b: the start address is reduced modulo the ROM length. -/
theorem test_exec_T39a :
    part (exec (.goRomDraw 0) { State.fresh (withRom [0x00, 0xE0, 0x00, 0xE0]) with
      regs := { RegisterFile.reset with blitAddress := 6 } }) (fun t => t.decoder) =
      some (.header { cur := 16, overrunLogged := false }) := by decide

/-- T40: the header, the run, the stop. -/
theorem test_step_T40_header : part (step atHeader) (fun t => (t.decoder, t.diag)) =
    some (.running { working 8 3 2 with x0 := 10 }, []) := by decide

theorem test_step_T40_draw : part (step atDraw) (fun t => (t.mem, t.decoder)) =
    some ((List.range 6).map (fun k => (512 * 20 + 10 + k, 0xA3)), .running { working 16 3 2 with x := 16 }) := by decide

theorem test_step_T40_stop : part (step atStop) (fun t => (t.regs.blitAddress, t.decoder, t.pending, t.outputs)) =
    some (3, .idle, 1, [.token .rom 0]) := by decide

/-- T41: COPY against the x direction, wrapping below column 0. -/
theorem test_exec_T41 :
    part (exec (.copy 1 [2, 15]) { State.reset with
      regs := { RegisterFile.reset with destLayerMask := 1, pen := 0x30 }
      decoder := .running { working 25 2 4 with x := 0, y := 0, x0 := 0, xdir := .dec } })
      (fun t => (t.mem, t.decoder)) =
    some ([(0, 0x31), (510, 0x3F), (511, 0x32)],
      .running { working 25 2 4 with x := -3, y := 0, x0 := 0, xdir := .dec }) := by decide

/-- T42: NEXT upwards, SKIP by ten. -/
theorem test_exec_T42_next :
    part (exec .next { State.reset with decoder := .running { working 19 4 1 with x := 13, ydir := .dec } })
      (fun t => t.decoder) = some (.running { working 19 4 1 with y := 19, ydir := .dec }) := by decide

theorem test_exec_T42_skip :
    part (exec (.skip 9) { State.reset with decoder := .running (working 26 4 1) }) (fun t => t.decoder) =
      some (.running { working 26 4 1 with x := 20 }) := by decide

/-- T44: sizes above their range are clamped and recorded unclamped. -/
theorem test_exec_T44_argsz :
    part (exec (.argsz 11) { State.reset with decoder := .running (working 41 6 4) }) (fun t => (t.decoder, t.diag)) =
      some (.running (working 41 8 4), [.argSizeRange 12]) := by decide

theorem test_exec_T44_pensz :
    part (exec (.pensz 6) { State.reset with decoder := .running (working 47 8 2) }) (fun t => (t.decoder, t.diag)) =
      some (.running (working 47 8 4), [.penSizeRange 7]) := by decide

/-- T45: UNK records opcode and cursor and ends the invocation. -/
theorem test_exec_T45 :
    part (exec (.unk 6) { State.reset with decoder := .running (working 11 1 1) })
      (fun t => (t.diag, t.regs.blitAddress, t.decoder, t.pending)) =
      some ([.unknownOpcode 6 11], 2, .idle, 1) := by decide

/-- T46: both header sizes out of range, pen first. -/
theorem test_exec_T46 :
    part (exec (.hdr 5 11) { atHeader with decoder := .header { cur := 8, overrunLogged := false } })
      (fun t => (t.decoder, t.diag)) = some (.running (working 8 8 4), [.penSizeRange 6, .argSizeRange 12]) := by decide

/-- T60: the kept points of ctrl 5 and ctrl 0xA among the vector's seven. -/
theorem test_clip_T60 :
    ([(15, 8), (16, 8), (47, 23), (48, 23), (47, 24), (100, 100), (16, 7)] : List (Nat × Nat)).map
      (fun q => (rejected .originPlusExtent (clipT60 0x05) q.1 q.2, rejected .originPlusExtent (clipT60 0x0A) q.1 q.2)) =
    [(true, true), (false, true), (false, true), (true, true), (true, true), (true, false), (true, true)] := by decide

/-- T61: the EXTENT_ONLY form. -/
theorem test_clip_T61 :
    ([(16, 8), (31, 15), (32, 15), (31, 16), (15, 8)] : List (Nat × Nat)).map
      (fun q => rejected .extentOnly (clipT60 0x05) q.1 q.2) = [false, false, true, true, true] := by decide

/-- T65 and T67: swap before wrap; the selected layers only. -/
theorem test_plot_T65 :
    (plot 3 700 0x7E (having { RegisterFile.reset with
      destLayerMask := 1, flip := { x := false, y := false, swapXY := true } })).mem = [(512 * 3 + 188, 0x7E)] := by decide

theorem test_plot_T67 :
    (plot 3 4 0x7E (having { RegisterFile.reset with destLayerMask := 0x85 })).mem =
      [(512 * 4 + 3, 0x7E), (262144 * 2 + 512 * 4 + 3, 0x7E), (262144 * 7 + 512 * 4 + 3, 0x7E)] := by decide

/-- T70 with pen 0 over a byte of layer 1 and one of layer 2. -/
theorem test_exec_T70 :
    part (exec (.goFillAll 0) { having { RegisterFile.reset with destLayerMask := 0x03 } with
      mem := [(262144 + 5, 0x11), (524288, 0x22)] }) (fun t => (t.mem, t.pending)) = some ([(524288, 0x22)], 1) := by decide

/-- T71b: FILL_FROM_XY from the last pixel. -/
theorem test_exec_T71b :
    part (exec (.goFillFromXY 0) (having { RegisterFile.reset with destLayerMask := 1, pen := 1, blitX := 1023, blitY := 1023 }))
      (fun t => t.mem) = some [(262143, 0x01)] := by decide

/-- T72: FILL_RECT across column 511. -/
theorem test_exec_T72 :
    part (exec (.goFillRect 0) (having { RegisterFile.reset with
      destLayerMask := 1, pen := 0x77, blitX := 510, rectWidth := 3, rectHeight := 1 })) (fun t => (t.mem, t.regs.blitX)) =
      some ([0, 1, 510, 511, 512, 513, 1022, 1023].map (fun a => (a, 0x77)), 510) := by decide

/-- A band of one row with pen 0 clears that row of its layer only (R253). -/
theorem test_exec_fillBand :
    part (exec (.goFillBand 0) { having { RegisterFile.reset with destLayerMask := 1, blitY := 512, blitX := 7 } with
      mem := [(0, 0x11), (511, 0x22), (512, 0x33), (262144, 0x44)] }) (fun t => t.mem) =
      some [(512, 0x33), (262144, 0x44)] := by decide

/-- P2: the lines advance their coordinate past the last pixel. -/
theorem test_exec_P2_hline :
    part (exec (.goHline 0) (having { RegisterFile.reset with destLayerMask := 2, pen := 7, blitX := 1, lineLength := 2 }))
      (fun t => (t.mem, t.regs.blitX)) = some ([262145, 262146, 262147].map (fun a => (a, 0x07)), 4) := by decide

theorem test_exec_P2_vline :
    part (exec (.goVline 0) (having { RegisterFile.reset with destLayerMask := 2, pen := 7, blitX := 4, lineLength := 2 }))
      (fun t => (t.mem, t.regs.blitY)) =
      some ([262144 + 4, 262144 + 516, 262144 + 1028].map (fun a => (a, 0x07)), 3) := by decide

/-- T9: two opaque layers; priority 0 paints layer 1 on top, 6 layer 0, 24 falls back. -/
def twoLayers (p : BitVec 5) : State :=
  { State.reset with
    mem := [(0, 0x12), (262144, 0x34)]
    regs := { RegisterFile.reset with
      bgColor := 0x7E, priorityIndex := p
      transparencyMask := #v[0x0F, 0x0F, 0, 0, 0, 0, 0, 0], paletteMask := #v[0x0F, 0x0F, 0, 0, 0, 0, 0, 0]
      paletteBase := #v[0x100, 0x210, 0, 0, 0, 0, 0, 0] } }

theorem test_frame_T9 :
    ([0, 6, 23, 24] : List (BitVec 5)).map (fun p => framePixel (twoLayers p) 0 0) = [0x214, 0x102, 0x102, 0x214] := by decide

theorem test_step_T9_fallback :
    part (step { twoLayers 24 with inbox := [.compositeFrame] }) (fun t => (t.outputs, t.diag)) =
      some ([.frame [[0x214]]], [.priorityRange 0 24]) := by decide

/-- T96: the 16-bit complement in the palette mapping. -/
theorem test_frame_T96 :
    mapped { RegisterFile.reset with
      paletteMask := #v[0, 0, 0, 0xF0, 0, 0, 0, 0], paletteBase := #v[0, 0, 0, 0x3FF, 0, 0, 0, 0] } 3 0x5A = 0x35F := by decide

/-- T104 and T106: complete() with and without a token. -/
theorem test_step_T104 :
    part (step { asked .complete with pending := 2 }) (fun t => (t.pending, t.outputs)) = some (1, [.blitComplete]) := by decide

theorem test_step_T106 : part (step (asked .complete)) (fun t => t.pending) = none := by decide

/-- T108: an empty ROM, and three bytes with 16-bit units, are refused. -/
theorem test_construct_T108 :
    (withRom []).legal = false ∧ (({ withRom [0, 0, 0] with fetchUnit := .u16 } : Config)).legal = false ∧
    Config.default.legal = true := by decide

/-- The host's probes: a word placed by withFetchWord runs as the first instruction after reset. -/
theorem test_withFetchWord :
    part (step (State.reset.withFetchWord 16 0x43FF)) (fun t => t.regs.blitY) = some 511 ∧
    part (step (State.reset.withFetchWord 8 0xC5)) (fun t => t.latchA) = some 0xC5 ∧
    part (step (State.reset.withFetchWord 8 3)) (fun t => part (.next t) (fun u => u.pending)) = some (some 0) ∧
    part (step (State.reset.withFetchWord 8 7)) (fun t => t.pending) = some 1 := by decide

/-! ## Witnesses: concrete states and operands that meet the hypotheses of a statement -/

theorem witness_HostInstructionsDecodeAfterEncode :
    (Instr.wrBlitX 5).wellFormed Config.default 1 1 = true ∧
    encode Config.default 1 1 (.wrBlitX 5) = some (.word .a 0x0205) ∧
    (Instr.sel .b 0xC5).wellFormed Config.default 1 1 = true ∧
    encode Config.default 1 1 (.sel .b 0xC5) = some (.selectByte .b 0xC5) ∧
    (Instr.app .a 0x20).wellFormed Config.default 1 1 = true ∧
    encode Config.default 1 1 (.app .a 0x20) = some (.applyByte .a 0x20) := by decide

theorem witness_BitstreamDecodesAfterEncode :
    (Instr.draw 5 3).wellFormed (withRom romT40) 3 2 = true ∧
    encode (withRom romT40) 3 2 (.draw 5 3) = some (.stream [false, false, true, true, false, true, true, true]) ∧
    streamAt (withRom romT40).rom (BitCursor.port ⟨8, false⟩).cursor.cur
      [false, false, true, true, false, true, true, true] = true ∧
    ¬ Claims.isHeader (.draw 5 3) ∧
    (Instr.hdr 1 2).wellFormed (withRom romT40) 1 1 = true ∧
    encode (withRom romT40) 1 1 (.hdr 1 2) = some (.stream [false, false, false, true, false, false, true, false]) ∧
    streamAt (withRom romT40).rom (BitCursor.port ⟨0, false⟩).cursor.cur
      [false, false, false, true, false, false, true, false] = true ∧
    Claims.isHeader (.hdr 1 2) := by simp only [Claims.isHeader]; decide

/-- A second index of a register, START on pair B, an undefined index. -/
theorem witness_DecodedHostWordsAreWellFormed :
    crossed.reg .a ((0b01_111111_11111111 : BitVec 16).extractLsb' 8 6) = some .rectWidth ∧
    Claims.writeRow .rectWidth ((0b01_111111_11111111 : BitVec 16).extractLsb' 14 2 ++
      (0b01_111111_11111111 : BitVec 16).extractLsb' 0 8) = some (.wrRectWidth 0x1FF) ∧
    crossed.reg .b ((0b00_000001_00010000 : BitVec 16).extractLsb' 8 6) = some .start ∧
    crossed.reg .b ((0b00_010010_00010000 : BitVec 16).extractLsb' 8 6) = none := by decide

theorem witness_DecodedCommandsAreWellFormed :
    sizesLegal 1 1 = true ∧ sizesLegal 8 4 = true := by decide

theorem witness_StepRunsTheHostsInstruction :
    (asked (.select .a 0xC5)).decoder = .idle ∧ (asked (.select .a 0xC5)).inbox = .select .a 0xC5 :: [] ∧
    (asked (.apply .b 0x20)).decoder = .idle ∧ (asked (.apply .b 0x20)).inbox = .apply .b 0x20 :: [] ∧
    (asked (.wideWrite .b 0xC520)).decoder = .idle ∧ (asked (.wideWrite .b 0xC520)).inbox = .wideWrite .b 0xC520 :: [] ∧
    (asked (.portWrite 6 0x20)).decoder = .idle ∧ (asked (.portWrite 6 0x20)).inbox = .portWrite 6 0x20 :: [] ∧
    (6 : Nat).testBit State.reset.config.portPhaseBit = false ∧
    (asked (.portWrite 7 0x20)).inbox = .portWrite 7 0x20 :: [] ∧
    (7 : Nat).testBit State.reset.config.portPhaseBit = true := by decide

theorem witness_StepRunsTheStreamsItem :
    atHeader.decoder = .header ⟨0, false⟩ ∧
    decodeHeader atHeader.config (BitCursor.port ⟨0, false⟩) = (.hdr 1 2, ⟨⟨8, false⟩, []⟩) ∧
    atDraw.decoder = .running (working 8 3 2) ∧
    decodeCommand atDraw.config 3 2 (BitCursor.port ⟨8, false⟩) = (.draw 5 3, ⟨⟨16, false⟩, []⟩) := by decide

theorem witness_StepRunsTheEncodedItem_header :
    atHeader.decoder = .header ⟨0, false⟩ ∧ Claims.isHeader (.hdr 1 2) ∧
    encode atHeader.config 1 1 (.hdr 1 2) = some (.stream [false, false, false, true, false, false, true, false]) ∧
    streamAt atHeader.config.rom 0 [false, false, false, true, false, false, true, false] = true := by simp only [Claims.isHeader]; decide

theorem witness_StepRunsTheEncodedItem_command :
    atDraw.decoder = .running (working 8 3 2) ∧ ¬ Claims.isHeader (.draw 5 3) ∧
    (Instr.draw 5 3).wellFormed atDraw.config 3 2 = true ∧
    encode atDraw.config 3 2 (.draw 5 3) = some (.stream [false, false, true, true, false, true, true, true]) ∧
    streamAt atDraw.config.rom 8 [false, false, true, true, false, true, true, true] = true := by simp only [Claims.isHeader]; decide

/-- The boundary: an item wholly past the end of the ROM, read as ones. -/
theorem witness_StepRunsTheEncodedItem_past_end :
    (pastEnd Config.ct0).decoder = .running (working 8 1 1) ∧ ¬ Claims.isHeader .stop ∧
    Instr.stop.wellFormed (pastEnd Config.ct0).config 1 1 = true ∧
    encode (pastEnd Config.ct0).config 1 1 .stop = some (.stream [true, true, true]) ∧
    streamAt (pastEnd Config.ct0).config.rom 8 [true, true, true] = true := by simp only [Claims.isHeader]; decide

theorem witness_IdleDeviceWaits :
    State.reset.decoder = .idle ∧ State.reset.inbox = [] := by decide

theorem witness_WideWriteIsSelectThenApply :
    State.reset.decoder = .idle := by decide

theorem witness_PairBWritesWithEightLayers :
    (State.fresh eight).config.eightLayer = true := by decide

theorem witness_PairBWithoutEightLayersIsUndefined :
    State.reset.config.eightLayer = false ∧
    (Claims.ofPairB (.transMask 7) ∧ Claims.writeRow (.transMask 7) 0x0F = some (.wrbTransMask7 0x0F) ∧
      ∀ k, State.reset.config.reg .a k ≠ some (.transMask 7)) ∧
    (({ crossed with eightLayer := false } : Config).eightLayer = false ∧ Claims.ofPairB .priority2 ∧
      Claims.writeRow .priority2 6 = some (.wrbPriority2 6) ∧
      ∃ k, ({ crossed with eightLayer := false } : Config).reg .a k = some .priority2) := by
  refine ⟨rfl, ⟨show (4 : Nat) ≤ 7 by decide, rfl, by decide⟩, rfl, trivial, rfl, 0x00, rfl⟩

/-- A kept pixel at both edges of the pixmap; the byte of the next layer is not among those stored. -/
theorem witness_PlotStoresAtTheWrappedPixel_kept :
    ((0 : Nat) : Int) = (if atDraw.regs.flip.swapXY = true then (511 : Int) else 512) % 512 ∧
    ((511 : Nat) : Int) = (if atDraw.regs.flip.swapXY = true then (512 : Int) else 511) % 512 ∧
    rejected atDraw.config.clipForm atDraw.regs.clip 0 511 = false ∧
    atDraw.regs.destLayerMask.getLsbD (0 : Layer).val = true ∧
    (∀ l : Layer, atDraw.regs.destLayerMask.getLsbD l.val = true → (262144 : Nat) ≠ 262144 * l.val + 512 * 511 + 0) := by decide

/-- A device whose window is T60's, with swap. -/
def clipped : State := having { drawRegs with clip := clipT60 0x05, flip := { x := false, y := false, swapXY := true } }

theorem witness_PlotStoresAtTheWrappedPixel_rejected :
    ((10 : Nat) : Int) = (if clipped.regs.flip.swapXY = true then (10 : Int) else 20) % 512 ∧
    ((20 : Nat) : Int) = (if clipped.regs.flip.swapXY = true then (20 : Int) else 10) % 512 ∧
    rejected clipped.config.clipForm clipped.regs.clip 10 20 = true := by decide

theorem witness_ClipTestFollowsItsFormula :
    (clipT60 0x0F).ctrl.extractLsb' 0 4 = 15 ∧ (clipT60 0x0C).ctrl.extractLsb' 0 2 = 0 ∧
    (clipT60 0x03).ctrl.extractLsb' 2 2 = 0 ∧
    (having { drawRegs with clip := clipT60 0xF0 }).regs.clip.ctrl.extractLsb' 0 4 = 0 := by decide

theorem witness_FillAllFillsTheSelectedLayers :
    atDraw.regs.destLayerMask.getLsbD (0 : Layer).val = true ∧ (0 : Nat) < 262144 ∧ (262143 : Nat) < 262144 ∧
    (∀ l : Layer, atDraw.regs.destLayerMask.getLsbD l.val = true →
      ¬ (262144 * l.val ≤ 262144 ∧ 262144 < 262144 * l.val + 262144)) := by decide

theorem witness_FillFromXYFillsToTheBufferEnd :
    ((10250 : Nat) : Int) = 512 * (atDraw.regs.blitY % 512) + atDraw.regs.blitX % 512 ∧
    atDraw.regs.destLayerMask.getLsbD (0 : Layer).val = true ∧ (10250 : Nat) ≤ 10250 ∧ (262143 : Nat) < 262144 ∧
    (∀ l : Layer, atDraw.regs.destLayerMask.getLsbD l.val = true →
      ¬ (262144 * l.val + 10250 ≤ 10249 ∧ 10249 < 262144 * l.val + 262144)) := by decide

/-- Addresses that a plot of a device with layer 0 and no clip hits and does not hit. -/
theorem hits_at {s : State} (hf : s.regs.flip = { x := false, y := false, swapXY := false })
    (hc : s.regs.clip.ctrl = 0x0F) (hd : s.regs.destLayerMask = 0x0001) (x y : Int) (a : Nat) :
    Hits s x y a ↔ a = 512 * wrap512 y + wrap512 x := by
  simp only [Hits, hf, swapIf, rejected, hc, hd]
  constructor
  · rintro ⟨-, l, hl, rfl⟩
    have : l = 0 := by revert hl; revert l; decide
    subst this
    simp [pixelAddress, layerAddress, linear]
  · rintro rfl
    exact ⟨by simp, 0, by decide, by simp [pixelAddress, layerAddress, linear]⟩

theorem hits_atDraw (x y : Int) (a : Nat) : Hits atDraw x y a ↔ a = 512 * wrap512 y + wrap512 x :=
  hits_at rfl rfl rfl x y a

theorem witness_FillRectPlotsTheBlock :
    (0 ≤ atDraw.regs.rectWidth ∧ 0 ≤ atDraw.regs.rectHeight ∧
      Hits atDraw (atDraw.regs.blitX + (0 : Nat)) (atDraw.regs.blitY + (0 : Nat)) 10250) ∧
    (∀ dx dy : Nat, dx ≤ atDraw.regs.rectWidth → dy ≤ atDraw.regs.rectHeight →
      ¬ Hits atDraw (atDraw.regs.blitX + dx) (atDraw.regs.blitY + dy) 10251) := by
  refine ⟨⟨by decide, by decide, by rw [hits_atDraw]; decide⟩, fun dx dy hx hy => ?_⟩
  obtain rfl : dx = 0 := Nat.le_zero.1 hx
  obtain rfl : dy = 0 := Nat.le_zero.1 hy
  rw [hits_atDraw]; decide

theorem witness_FillBandFillsWholeRows :
    atDraw.regs.destLayerMask.getLsbD (0 : Layer).val = true ∧ 0 ≤ atDraw.regs.rectHeight ∧
    ((20 : Nat) : Int) = (atDraw.regs.blitY + (0 : Nat)) % 512 ∧ (511 : Nat) < 512 ∧
    (∀ (l : Layer) (k r x : Nat), atDraw.regs.destLayerMask.getLsbD l.val = true → k ≤ atDraw.regs.rectHeight →
      (r : Int) = (atDraw.regs.blitY + k) % 512 → x < 512 → 0 ≠ 262144 * l.val + 512 * r + x) := by
  refine ⟨by decide, by decide, by decide, by decide, fun l k r x _ hk hr _ => ?_⟩
  obtain rfl : k = 0 := Nat.le_zero.1 hk
  have : (r : Int) = 20 := hr
  omega

theorem witness_HlineDrawsAndAdvancesBlitX :
    (0 ≤ atDraw.regs.lineLength ∧ Hits atDraw (atDraw.regs.blitX + (0 : Nat)) atDraw.regs.blitY 10250) ∧
    (∀ k : Nat, k ≤ atDraw.regs.lineLength → ¬ Hits atDraw (atDraw.regs.blitX + k) atDraw.regs.blitY 10251) := by
  refine ⟨⟨by decide, by rw [hits_atDraw]; decide⟩, fun k hk => ?_⟩
  obtain rfl : k = 0 := Nat.le_zero.1 hk
  rw [hits_atDraw]; decide

theorem witness_VlineDrawsAndAdvancesBlitY :
    (0 ≤ atDraw.regs.lineLength ∧ Hits atDraw atDraw.regs.blitX (atDraw.regs.blitY + (0 : Nat)) 10250) ∧
    (∀ k : Nat, k ≤ atDraw.regs.lineLength → ¬ Hits atDraw atDraw.regs.blitX (atDraw.regs.blitY + k) 10762) := by
  refine ⟨⟨by decide, by rw [hits_atDraw]; decide⟩, fun k hk => ?_⟩
  obtain rfl : k = 0 := Nat.le_zero.1 hk
  rw [hits_atDraw]; decide

theorem witness_StartTokenFamilies :
    (Instr.goFillAll 0 ∈ ([.goFillAll 0, .goFillFromXY 0, .goFillRect 0, .goFillBand 0, .goHline 0, .goVline 0] : List Instr)) ∧
    (Instr.goVline 3 ∈ ([.goFillAll 3, .goFillFromXY 3, .goFillRect 3, .goFillBand 3, .goHline 3, .goVline 3] : List Instr)) := by decide

theorem witness_HeaderSetsSizesAndPosition :
    atHeader.decoder = .header ⟨0, false⟩ := by decide

theorem witness_NextLineStepsTheRow :
    atDraw.decoder = .running (working 8 3 2) := by decide

theorem witness_SkipAdvancesX :
    atDraw.decoder = .running (working 8 3 2) := by decide

theorem witness_SizeChangesClampAndRecord :
    atDraw.decoder = .running (working 8 3 2) := by decide

theorem witness_UnknownRecordsThenStops :
    atDraw.decoder = .running (working 8 3 2) := by decide

theorem witness_StopEndsTheInvocation :
    atStop.decoder = .running (working 16 3 2) := by decide

theorem witness_DrawRunPlotsOnePen :
    atDraw.decoder = .running (working 8 3 2) ∧
    ((5 : Nat) ≤ 5 ∧ Hits atDraw ((working 8 3 2).x + Claims.sign (working 8 3 2).xdir * ((5 : Nat) : Int)) (working 8 3 2).y 10255) ∧
    (∀ k : Nat, k ≤ 5 → ¬ Hits atDraw ((working 8 3 2).x + Claims.sign (working 8 3 2).xdir * (k : Int)) (working 8 3 2).y 10256) := by
  refine ⟨rfl, ⟨by decide, by rw [hits_atDraw]; decide⟩, fun k hk => ?_⟩
  rw [hits_atDraw]
  interval_cases k <;> decide

theorem witness_CopyRunPlotsEachPen :
    atDraw.decoder = .running (working 8 3 2) ∧
    ((1 :: [2, 15] : List Byte)[1]? = some 2 ∧
      Hits atDraw ((working 8 3 2).x + Claims.sign (working 8 3 2).xdir * ((1 : Nat) : Int)) (working 8 3 2).y 10251 ∧
      (∀ j : Nat, 1 < j → j ≤ ([2, 15] : List Byte).length →
        ¬ Hits atDraw ((working 8 3 2).x + Claims.sign (working 8 3 2).xdir * (j : Int)) (working 8 3 2).y 10251)) ∧
    (∀ k : Nat, k ≤ ([2, 15] : List Byte).length →
      ¬ Hits atDraw ((working 8 3 2).x + Claims.sign (working 8 3 2).xdir * (k : Int)) (working 8 3 2).y 10253) := by
  refine ⟨rfl, ⟨rfl, by rw [hits_atDraw]; decide, fun j hj hl => ?_⟩, fun k hk => ?_⟩
  · rw [hits_atDraw]
    change j ≤ 2 at hl
    interval_cases j
    decide
  · rw [hits_atDraw]
    change k ≤ 2 at hk
    interval_cases k <;> decide

theorem witness_MergeFollowsPenMode :
    RegisterFile.reset.penMode = false ∧ ({ RegisterFile.reset with penMode := true } : RegisterFile).penMode = true := by decide

/-- The last five bits of T40's ROM, first and last bit of the field. -/
theorem witness_FetchReadsTheRomMostSignificantFirst :
    (BitCursor.port ⟨19, false⟩).cursor.cur + 5 ≤ 8 * romT40.length ∧ (0 : Nat) < 5 ∧ (4 : Nat) < 5 := by decide

/-- T37's field: its first overrunning bit and its last real one. -/
theorem witness_OverrunReadsOnesAndIsRecordedOnce :
    ((3 : Nat) < 6 ∧ 8 * ([0xB4] : List Byte).length ≤ (BitCursor.port ⟨5, false⟩).cursor.cur + 3) ∧
    ((2 : Nat) < 6 ∧ (BitCursor.port ⟨5, false⟩).cursor.cur + 2 < 8 * ([0xB4] : List Byte).length) := by decide

theorem witness_InvocationsEndWhenOpcodeSevenEnds :
    (atHeader.decoder ≠ .idle ∧ atHeader.config.operation 7 = .stop) ∧
    ((pastEnd (Vector.replicate 8 .unknown)).decoder ≠ .idle ∧
      (pastEnd (Vector.replicate 8 .unknown)).config.operation 7 = .unknown) := by decide

theorem witness_OverrunDivergesWhenOpcodeSevenGoesOn :
    (pastEnd ctRev).decoder = .running (working 8 1 1) ∧ Claims.romEnd (pastEnd ctRev).config ≤ 8 ∧
    (pastEnd ctRev).config.operation 7 ≠ .stop ∧ (pastEnd ctRev).config.operation 7 ≠ .unknown := by decide

theorem witness_InvocationStepsWriteOnlyTheirOwn :
    atHeader.decoder ≠ .idle ∧ atStop.decoder ≠ .idle ∧ ∃ t, step atDraw = .next t ∧ t.decoder ≠ .idle := ⟨by decide, by decide, _, rfl, by decide⟩

/-- T3's stream in front of its header. -/
def atT3 : State := { State.fresh (withRom [0x00, 0xE0]) with decoder := .header { cur := 0, overrunLogged := false } }

theorem witness_HeaderThenStopOnlyMovesTheAddress :
    atT3.decoder = .header ⟨0, false⟩ ∧ 0 + 11 ≤ Claims.romEnd atT3.config ∧ atT3.config.operation 7 = .stop ∧
    streamAt atT3.config.rom 0
      (fieldBits 4 (0 : BitVec 4).toNat ++ fieldBits 4 (0 : BitVec 4).toNat ++ fieldBits 3 (7 : BitVec 3).toNat) = true := by decide

theorem witness_FramePixelIsTheTopmostOpaqueLayer_layer :
    Claims.paintOrder (twoLayers 0) = [(0, 0x0F)] ++ (1, 0x0F) :: [(2, 0x0F), (3, 0x0F)] ∧
    Claims.Opaque (twoLayers 0) 0 0 (1, 0x0F) ∧
    (∀ q ∈ ([(2, 0x0F), (3, 0x0F)] : List (Layer × Byte)), ¬ Claims.Opaque (twoLayers 0) 0 0 q) := by unfold Claims.Opaque; decide +kernel

theorem witness_FramePixelIsTheTopmostOpaqueLayer_background :
    ∀ q ∈ Claims.paintOrder (twoLayers 31), ¬ Claims.Opaque (twoLayers 31) 1 0 q := by unfold Claims.Opaque; decide +kernel

/-- With EIGHT_LAYER the second group is painted over the first. -/
theorem witness_FramePixelIsTheTopmostOpaqueLayer_eight :
    Claims.paintOrder (State.fresh eight) =
    [(0, 0x0F), (1, 0x0F), (2, 0x0F), (3, 0x0F), (4, 0x0F), (5, 0x0F), (6, 0x0F), (7, 0x0F)] := by decide

theorem witness_CompositeHandsOutTheFrameOnly :
    (asked .compositeFrame).decoder = .idle ∧ (asked .compositeFrame).inbox = .compositeFrame :: [] ∧
    0 < (asked .compositeFrame).config.visWidth ∧ 0 < (asked .compositeFrame).config.visHeight := by decide

theorem witness_CompleteRedeemsOneToken :
    (asked .complete).decoder = .idle ∧ (asked .complete).inbox = .complete :: [] ∧ (asked .complete).pending = 0 ∧
    ({ asked .complete with pending := 1 } : State).decoder = .idle ∧
    ({ asked .complete with pending := 1 } : State).inbox = .complete :: [] ∧
    0 < ({ asked .complete with pending := 1 } : State).pending := by decide

theorem witness_StatusAndGettersChangeNothing :
    (asked .readStatus).decoder = .idle ∧ (asked .readStatus).inbox = .readStatus :: [] ∧
    (asked (.get .blitX)).decoder = .idle ∧ (asked (.get .blitX)).inbox = .get .blitX :: [] ∧
    (asked (.get (.scrollX 7))).inbox = .get (.scrollX 7) :: [] := by decide

/-- A getter hands out the field (R66): a coordinate that was never reduced, an element of a bank. -/
theorem test_step_getters :
    part (step { asked (.get .blitX) with regs := { RegisterFile.reset with blitX := 1024 } }) (fun t => t.outputs) =
      some [.value .blitX 1024] ∧
    part (step (asked (.get .clipCtrl))) (fun t => t.outputs) = some [.value .clipCtrl 0x0F] := by decide

theorem witness_ResetLeavesTheResetValues :
    ({ asked .reset with regs := drawRegs } : State).decoder = .idle ∧ ({ asked .reset with regs := drawRegs } : State).inbox = .reset :: [] := by decide

/-- A legal configuration, and one whose ROM is empty. -/
theorem witness_ConstructionRefusesIllegalConfigurations :
    (0 < Config.default.rom.length ∧ (8 * Config.default.rom.length) % Claims.unit Config.default = 0 ∧
      (∀ o ∈ Config.default.perm.toList, [o.bottom, o.second, o.third, o.top].Nodup) ∧ Config.default.perm.toList.Nodup ∧
      0 < Config.default.visWidth ∧ 0 < Config.default.visHeight) ∧
    ¬ (0 < (withRom []).rom.length) := by decide

theorem witness_InvariantIsKeptByEveryStep :
    (atHeader.Inv ∧ ∃ t, step atHeader = .next t) ∧ (atDraw.Inv ∧ ∃ t, step atDraw = .next t) := ⟨⟨by decide, _, rfl⟩, by decide, _, rfl⟩

theorem witness_InvariantHoldsAfterReset :
    (withRom romT40).legal = true ∧ eight.legal = true := by decide

theorem witness_ConstructedDeviceNeverFails :
    ¬ (Claims.Serves atDraw .complete ∧ atDraw.pending = 0) ∧
    ∃ r, step (asked .complete) = .refused r := ⟨fun h => absurd h.1.1 (by decide), _, rfl⟩

theorem atDraw_serves_nothing (e : HostEntry) : ¬ Claims.Serves atDraw e := fun h => absurd h.1 (by decide)

theorem witness_DiagnosticsOnlyGrow :
    (∃ t, step atDraw = .next t) ∧ ¬ Claims.Serves atDraw .reset := ⟨⟨_, rfl⟩, atDraw_serves_nothing .reset⟩

theorem witness_PendingCountsOutstandingTokens :
    (∃ t, step atDraw = .next t) ∧ ¬ Claims.Serves atDraw .reset := ⟨⟨_, rfl⟩, atDraw_serves_nothing .reset⟩

theorem witness_ConfigurationNeverChanges :
    ∃ t, step (asked .reset) = .next t := ⟨_, rfl⟩

theorem witness_PenMaskIsNeverRead :
    ¬ Claims.Serves atDraw (.get .penMask) := atDraw_serves_nothing _

end Sys2Proof.Tests
end

/-! Proofs of the statements on 00_scope.md: what a host word decodes to (R10, R11, R132, R134). -/

namespace Sys2Proof

/-! ## Which registers and start operations a configuration reaches -/

/-- A register that an index of a pair is laid to is one that the configuration reaches. -/
theorem Config.hasReg_of_reg {cfg : Config} {q : PortPair} {k : BitVec 6} {r : Reg} (h : cfg.reg q k = some r) :
    cfg.hasReg r = true := by
  have hq : (cfg.index q r).isSome = true := Config.index_isSome.2 ⟨k, h⟩
  cases q with
  | a => simp [Config.hasReg, hq]
  | b => simp [Config.hasReg, hq]

/-- An operation has a start code exactly when STARTMAP gives it to some code. -/
theorem Config.startCode_isSome {cfg : Config} {o : StartOp} :
    (cfg.startCode o).isSome = true ↔ ∃ code, cfg.startOp code = some o := lowestKey_isSome

/-- Where START has an index, the operation of any code of STARTMAP can be started. -/
theorem Config.hasStart_of_startOp {cfg : Config} {code : Byte} {o : StartOp} (hs : cfg.hasReg .start = true)
    (h : cfg.startOp code = some o) : cfg.hasStart o = true := by
  simp [Config.hasStart, hs, Config.startCode_isSome.2 ⟨code, h⟩]

/-! ## The rows of the registers and of the start codes -/

/-- START is the only register without a row that writes it. -/
theorem writeRow_eq_none {r : Reg} {v : BitVec 10} : Claims.writeRow r v = none ↔ r = .start := by
  fun_cases Claims.writeRow r v <;> simp

/-- The row that writes a register is well-formed exactly when the configuration reaches the register. -/
theorem writeRow_wellFormed {r : Reg} {v : BitVec 10} {i : Instr} (h : Claims.writeRow r v = some i)
    (cfg : Config) (a p : Nat) : i.wellFormed cfg a p = cfg.hasReg r := by
  revert h
  fun_cases Claims.writeRow r v <;> rintro ⟨⟩ <;> rfl

/-- The decoder's row of a register is the row that writes carry:data to it. -/
theorem instrOfReg_of_writeRow {r : Reg} {c : BitVec 2} {d : Byte} {i : Instr}
    (h : Claims.writeRow r (combinedValue c d) = some i) (cfg : Config) : instrOfReg cfg r c d = i := by
  revert h
  fun_cases Claims.writeRow r (combinedValue c d) <;> rintro ⟨⟩ <;> rfl

/-- The decoder's row of a start code is the row of what STARTMAP gives the code. -/
theorem instrOfStart_eq_startRow (cfg : Config) (c : BitVec 2) (code : Byte) :
    instrOfStart cfg c code = Claims.startRow (cfg.startOp code) c code := by
  unfold instrOfStart
  cases cfg.startOp code with
  | none => rfl
  | some o => cases o <;> rfl

/-- The row of an operation with a start code is well-formed exactly when the operation can be started. -/
theorem startRow_wellFormed (o : StartOp) (c : BitVec 2) (code : Byte) (cfg : Config) (a p : Nat) :
    (Claims.startRow (some o) c code).wellFormed cfg a p = cfg.hasStart o := by
  cases o <;> rfl

/-- Where START has an index, the row of every start code is well-formed, the unknown-start row included. -/
theorem instrOfStart_wellFormed {cfg : Config} (hs : cfg.hasReg .start = true) (c : BitVec 2) (code : Byte)
    (a p : Nat) : (instrOfStart cfg c code).wellFormed cfg a p = true := by
  rw [instrOfStart_eq_startRow]
  cases ho : cfg.startOp code with
  | none => simp [Claims.startRow, Instr.wellFormed, hs, ho]
  | some o => rw [startRow_wellFormed, Config.hasStart_of_startOp hs ho]

/-- The decoder's row of a register that the configuration reaches is well-formed. -/
theorem instrOfReg_wellFormed {cfg : Config} {r : Reg} (hr : cfg.hasReg r = true) (c : BitVec 2) (d : Byte)
    (a p : Nat) : (instrOfReg cfg r c d).wellFormed cfg a p = true := by
  cases hi : Claims.writeRow r (combinedValue c d) with
  | none =>
    obtain rfl := writeRow_eq_none.1 hi
    exact instrOfStart_wellFormed hr c d a p
  | some i => rw [instrOfReg_of_writeRow hi, writeRow_wellFormed hi, hr]

/-! ## Host words -/

/-- A word whose index the pair's layout defines decodes to the row of its register (R132). -/
theorem decodeWord_of_reg {cfg : Config} {q : PortPair} {w : BitVec 16} {r : Reg}
    (h : cfg.reg q (wordIndex w) = some r) :
    decodeWord cfg q w = instrOfReg cfg r (wordCarry w) (wordData w) := by
  simp [decodeWord, h]

/-- A word whose index the pair's layout does not define decodes to the undefined-index row (R134, R162). -/
theorem decodeWord_of_undefined {cfg : Config} {q : PortPair} {w : BitVec 16} (h : cfg.reg q (wordIndex w) = none) :
    decodeWord cfg q w = .wrUndefinedIndex q (wordIndex w) (combinedValue (wordCarry w) (wordData w)) := by
  simp [decodeWord, h]

/-- What a host word decodes to has an encoding, whatever the operand sizes of the bitstream are. -/
theorem decodeWord_wellFormed (cfg : Config) (q : PortPair) (w : BitVec 16) (a p : Nat) :
    (decodeWord cfg q w).wellFormed cfg a p = true := by
  cases h : cfg.reg q (wordIndex w) with
  | none =>
    rw [decodeWord_of_undefined h]
    simp [Instr.wellFormed, Config.undefinedIndex, h]
  | some r =>
    rw [decodeWord_of_reg h]
    exact instrOfReg_wellFormed (Config.hasReg_of_reg h) _ _ a p

/-- Settles O3: the three cases are the three things a layout can give the word's index (a register with a row, START,
nothing), and each row is well-formed because the word's own index and code reach it. -/
theorem decodedHostWordsAreWellFormed : Obligations.DecodedHostWordsAreWellFormed := by
  intro cfg q w a p
  refine ⟨decodeWord_wellFormed cfg q w a p, fun r i hr hi => ?register, fun hs => ?start, decodeWord_of_undefined⟩
  case register => exact (decodeWord_of_reg hr).trans (instrOfReg_of_writeRow hi cfg)
  case start => exact (decodeWord_of_reg hs).trans (instrOfStart_eq_startRow cfg _ _)

end Sys2Proof

/-! Proofs of the statements on 10_state.md: what register writes store, what the host reads, and the invariant that
holds at reset and that every step keeps (R54, R56). -/

namespace Sys2Proof

/-! ## Host words -/

/-- The word of a pair names its index (R101). -/
@[simp] theorem wordIndex_pair (k : BitVec 6) (v : BitVec 10) : wordIndex (Claims.pair k v) = k :=
  wordIndex_valueWord k v

theorem wordData_pair (k : BitVec 6) (v : BitVec 10) : wordData (Claims.pair k v) = v.extractLsb' 0 8 :=
  BitVec.extractLsb'_append_eq_right

theorem wordCarry_pair (k : BitVec 6) (v : BitVec 10) : wordCarry (Claims.pair k v) = v.extractLsb' 8 2 := by
  unfold wordCarry Claims.pair
  rw [BitVec.extractLsb'_append_eq_of_le (by decide)]
  exact BitVec.extractLsb'_append_eq_left

/-- The carry and data of a pair are the value it carries (R102). -/
@[simp] theorem combinedValue_pair (k : BitVec 6) (v : BitVec 10) :
    combinedValue (wordCarry (Claims.pair k v)) (wordData (Claims.pair k v)) = v := by
  rw [wordCarry_pair, wordData_pair, combinedValue,
    BitVec.extractLsb'_append_extractLsb'_eq_extractLsb' (by decide)]
  exact BitVec.extractLsb'_eq_self

/-- A pair whose index is laid to a register decodes to the row that writes its value to the register. -/
theorem decodeWord_pair {cfg : Config} {q : PortPair} {k : BitVec 6} {r : Reg} {v : BitVec 10} {i : Instr}
    (hr : cfg.reg q k = some r) (hi : Claims.writeRow r v = some i) : decodeWord cfg q (Claims.pair k v) = i := by
  rw [decodeWord_of_reg ((congrArg (cfg.reg q) (wordIndex_pair k v)).trans hr)]
  exact instrOfReg_of_writeRow (by rwa [combinedValue_pair]) cfg

/-! ## What the bitstream's decoders do to the cursor -/

theorem BitCursor.port_faithful {cfg : Config} {c : BitCursor} :
    c.port.Faithful cfg.rom ↔ c.overrunLogged = decide (8 * cfg.romLength < c.cur) := Iff.rfl

theorem decodeHeader_faithful {cfg : Config} {p : BitPort} (h : p.Faithful cfg.rom) :
    (decodeHeader cfg p).2.Faithful cfg.rom := fetchField_faithful 8 h

theorem decodeOperands_faithful {cfg : Config} {p : BitPort} (a n : Nat) (op : BitVec 3) (h : p.Faithful cfg.rom) :
    (decodeOperands cfg a n op p).2.Faithful cfg.rom := by
  unfold decodeOperands
  cases cfg.operation op with
  | nextLine | unknown | stop => exact h
  | skip | changeArgSize | changePenSize => exact fetchField_faithful _ h
  | drawRun => exact fetchField_faithful _ (fetchField_faithful _ h)
  | copyRun => exact fetchFields_faithful _ _ (fetchField_faithful _ (fetchField_faithful _ h))

theorem decodeCommand_faithful {cfg : Config} {p : BitPort} (a n : Nat) (h : p.Faithful cfg.rom) :
    (decodeCommand cfg a n p).2.Faithful cfg.rom := decodeOperands_faithful a n _ (fetchField_faithful 3 h)

/-- The default configuration can be constructed (R345). -/
theorem Config.default_legal : Config.default.legal = true := by decide

end Sys2Proof

namespace Sys2Proof.Machine

/-! ## What a step runs -/

theorem step_of_idle {s : State} (h : fetch s = .idle) : step s = .next s := by simp [step, h]
theorem step_of_instr {s u : State} {i : Instr} (h : fetch s = .instr i u) : step s = exec i u := by simp [step, h]
theorem step_of_done {s : State} {r : Result} (h : fetch s = .done r) : step s = r := by simp [step, h]

/-- Outside an invocation an empty list of host entries leaves nothing to do (log 2). -/
theorem fetch_of_no_entry {s : State} (hd : s.decoder = .idle) (hi : s.inbox = []) : fetch s = .idle := by
  simp [fetch, hd, hi]

/-- Outside an invocation the host's next entry is served (R80). -/
theorem fetch_of_entry {s : State} {e : HostEntry} {es : List HostEntry} (hd : s.decoder = .idle)
    (hi : s.inbox = e :: es) : fetch s = serve e (s.withInbox es) := by
  simp [fetch, hd, hi]

theorem fetch_of_header {s : State} {c : BitCursor} (hd : s.decoder = .header c) : fetch s = fetchHeader c s := by
  simp [fetch, hd]

theorem fetch_of_running {s : State} {w : Working} (hd : s.decoder = .running w) : fetch s = fetchCommand w s := by
  simp [fetch, hd]

/-! ## The meaning of a decoded host word -/

/-- The data are bits 7:0 of the combined value (R102). -/
@[simp] theorem lowByte_combinedValue (c : BitVec 2) (d : Byte) : lowByte (combinedValue c d) = d :=
  BitVec.extractLsb'_append_eq_right

/-- A register that an index of a pair is laid to is on an existing pair B, or pair A reaches it. -/
theorem reached_of_reg {cfg : Config} {q : PortPair} {k : BitVec 6} {r : Reg} (h : cfg.reg q k = some r) :
    (cfg.eightLayer || (cfg.index .a r).isSome) = true := by
  cases q with
  | a => simp [Config.index_isSome.2 ⟨k, h⟩]
  | b =>
    simp only [Config.reg] at h
    split_ifs at h with he
    simp [he]

/-- Where pair B exists or pair A reaches the register, a WRB row is the register's write (R134). -/
theorem pairBWrite_of_reached {r : Reg} {s : State} (h : (s.config.eightLayer || (s.config.index .a r).isSome) = true)
    (f : BitVec 10 → State → State) (v : BitVec 10) : pairBWrite r f v s = f v s := if_pos h

/-- The row that writes a register that the configuration reaches is the register's rule (R132). -/
theorem exec_writeRow {r : Reg} {v : BitVec 10} {i : Instr} {s : State} (hi : Claims.writeRow r v = some i)
    (h : (s.config.eightLayer || (s.config.index .a r).isSome) = true) : exec i s = .next (writeReg r v s) := by
  revert hi h
  fun_cases Claims.writeRow r v <;> rintro ⟨⟩ h
  -- The WR rows are their register's rule by definition; the WRB rows are it where the register is reached.
  any_goals rfl
  all_goals exact congrArg _ (pairBWrite_of_reached h _ v)

/-- The row of a start code is START's dispatch on it (R160, R161). -/
theorem exec_instrOfStart (s : State) (c : BitVec 2) (code : Byte) :
    exec (instrOfStart s.config c code) s = .next (runStart code s) := by
  unfold instrOfStart runStart
  cases s.config.startOp code with
  | none => rfl
  | some o => cases o <;> rfl

/-- The row of a register that the configuration reaches is the register's rule with the combined value. -/
theorem exec_instrOfReg {s : State} {r : Reg} (h : (s.config.eightLayer || (s.config.index .a r).isSome) = true)
    (c : BitVec 2) (d : Byte) : exec (instrOfReg s.config r c d) s = .next (writeReg r (combinedValue c d) s) := by
  cases hi : Claims.writeRow r (combinedValue c d) with
  | none =>
    obtain rfl := writeRow_eq_none.1 hi
    rw [writeReg, lowByte_combinedValue]
    exact exec_instrOfStart s c d
  | some i => rw [instrOfReg_of_writeRow hi, exec_writeRow hi h]

/-- The row that a host word decodes to does what an apply does with the word's index and value (R132, R162). -/
theorem exec_decodeWord (s : State) (q : PortPair) (w : BitVec 16) :
    exec (decodeWord s.config q w) s =
      .next (applyRegister q (wordIndex w) (combinedValue (wordCarry w) (wordData w)) s) := by
  unfold applyRegister
  cases h : s.config.reg q (wordIndex w) with
  | none => rw [decodeWord_of_undefined h]; rfl
  | some r => rw [decodeWord_of_reg h, exec_instrOfReg (reached_of_reg h)]

/-! ## What the host reads -/

/-- The status byte is 1 when a token is pending and 0 otherwise (R313). -/
theorem statusByte_eq (s : State) : statusByte s = if 0 < s.pending then 1 else 0 := by
  simp [statusByte, busy]

/-- Every getter hands out the field of its name (R66). -/
theorem fieldValue_eq_getterValue (s : State) (f : Field) : fieldValue s f = Claims.getterValue s f := by
  cases f <;> rfl

/-! ## Ranges -/

theorem clampTo_le (v m : Nat) : clampTo v m ≤ m := by unfold clampTo; split_ifs <;> omega

theorem one_le_clampTo {v m : Nat} (hv : 1 ≤ v) (hm : 1 ≤ m) : 1 ≤ clampTo v m := by
  unfold clampTo; split_ifs <;> omega

theorem one_le_sizeOf (f : Nat) : 1 ≤ sizeOf f := Nat.le_add_left 1 f

/-- A combined value is at most 1023 (R102). -/
theorem value_le (v : BitVec 10) : v.toNat ≤ 1023 := by have := v.isLt; omega

theorem wideValue_le (v : BitVec 10) : (wideValue v).toNat ≤ 1023 :=
  (BitVec.toNat_setWidth_of_le (by decide)).trans_le (value_le v)

/-- Setting one layer of a bank to a value in a range keeps the bank in the range. -/
theorem bank_set {α : Type} {P : α → Prop} {xs : Vector α 8} (h : ∀ k : Layer, P (xs.get k)) (l : Layer) {a : α}
    (ha : P a) (k : Layer) : P ((xs.set l a).get k) := by
  simp only [Vector.get_eq_getElem, Vector.getElem_set] at h ⊢
  split_ifs
  · exact ha
  · exact h k

/-- `blit_x` is bounded below only: HLINE leaves it past the last pixel, unreduced (R256). -/
theorem RegisterFile.Legal.setBlitX {r : RegisterFile} (h : r.Legal) {x : Int} (hx : 0 ≤ x) :
    RegisterFile.Legal { r with blitX := x } := by
  simp [RegisterFile.Legal, h, hx]

/-- `blit_y` is bounded below only: VLINE leaves it past the last pixel, unreduced (R257). -/
theorem RegisterFile.Legal.setBlitY {r : RegisterFile} (h : r.Legal) {y : Int} (hy : 0 ≤ y) :
    RegisterFile.Legal { r with blitY := y } := by
  simp [RegisterFile.Legal, h, hy]

/-! ## The decoder's part of the invariant -/

theorem legal_header_iff {cfg : Config} {c : BitCursor} :
    (Decoder.header c).legal cfg = true ↔
      c.cur % cfg.unitBits = 0 ∧ c.cur < 8 * cfg.romLength ∧ c.overrunLogged = false := by
  simp [Decoder.legal, and_assoc]

theorem legal_running_iff {cfg : Config} {w : Working} :
    (Decoder.running w).legal cfg = true ↔
      (1 ≤ w.penSize ∧ w.penSize ≤ 4) ∧ (1 ≤ w.argSize ∧ w.argSize ≤ 8) ∧ w.cursor.port.Faithful cfg.rom := by
  simp [Decoder.legal, and_assoc, BitCursor.port_faithful]

/-- In front of the header no bit past the end was fetched. -/
theorem faithful_of_legal_header {cfg : Config} {c : BitCursor} (h : (Decoder.header c).legal cfg = true) :
    c.port.Faithful cfg.rom := by
  obtain ⟨-, hlt, hlog⟩ := legal_header_iff.1 h
  exact BitCursor.port_faithful.2 (hlog.trans (decide_eq_false (by omega)).symm)

/-- The start cursor is a multiple of the fetch unit inside the ROM, whatever the address is (R76). -/
theorem startCursor_legal {s : State} (h : s.config.legal = true) :
    (Decoder.header { cur := startCursor s, overrunLogged := false }).legal s.config = true := by
  simp only [Config.legal, Bool.and_eq_true, decide_eq_true_eq] at h
  obtain ⟨⟨⟨⟨⟨hrom, hunit⟩, -⟩, -⟩, -⟩, -⟩ := h
  refine legal_header_iff.2 ⟨?_, Nat.mod_lt _ (by omega), rfl⟩
  show startCursor s % s.config.unitBits = 0
  rw [startCursor, Nat.mod_mod_of_dvd _ (Nat.dvd_of_mod_eq_zero hunit), Nat.mul_mod_left]

/-! ## What each update of the state needs to keep the invariant -/

section
variable {s : State}

theorem State.Inv.memory (h : s.Inv) : Memory.wf s.mem = true := let ⟨hmem, _⟩ := h; hmem
theorem State.Inv.registers (h : s.Inv) : s.regs.Legal := let ⟨_, hregs, _⟩ := h; hregs
theorem State.Inv.decoding (h : s.Inv) : s.decoder.legal s.config = true :=
  let ⟨_, _, hdec, _⟩ := h; hdec
theorem State.Inv.configuration (h : s.Inv) : s.config.legal = true :=
  let ⟨_, _, _, hcfg, _⟩ := h; hcfg
theorem State.Inv.records (h : s.Inv) : Diag.lineLengthRange ∉ s.diag :=
  let ⟨_, _, _, _, hdiag⟩ := h; hdiag

theorem State.Inv.withRegs (h : s.Inv) {r : RegisterFile} (hr : r.Legal) : (s.withRegs r).Inv :=
  ⟨h.memory, hr, h.decoding, h.configuration, h.records⟩

theorem State.Inv.withMem (h : s.Inv) {m : Memory} (hm : Memory.wf m = true) : (s.withMem m).Inv :=
  ⟨hm, h.registers, h.decoding, h.configuration, h.records⟩

theorem State.Inv.withDecoder (h : s.Inv) {d : Decoder} (hd : d.legal s.config = true) : (s.withDecoder d).Inv :=
  ⟨h.memory, h.registers, hd, h.configuration, h.records⟩

theorem State.Inv.withInbox (h : s.Inv) (es : List HostEntry) : (s.withInbox es).Inv := h
theorem State.Inv.emit (h : s.Inv) (o : Output) : (s.emit o).Inv := h
theorem State.Inv.schedule (h : s.Inv) (f : DelayFamily) : (s.schedule f).Inv := h
theorem State.Inv.withLatch (h : s.Inv) (q : PortPair) (b : Byte) : (s.withLatch q b).Inv := by cases q <;> exact h

/-- Any record but code 9 keeps the invariant (R302). -/
theorem State.Inv.raise (h : s.Inv) {d : Diag} (hd : Diag.lineLengthRange ≠ d) : (s.raise d).Inv :=
  ⟨h.memory, h.registers, h.decoding, h.configuration, by simp [h.records, hd]⟩

theorem State.Inv.raiseIf (h : s.Inv) (c : Bool) {d : Diag} (hd : Diag.lineLengthRange ≠ d) :
    (s.raiseIf c d).Inv := by
  cases c with
  | false => exact h
  | true => exact h.raise hd

theorem State.Inv.raiseOverruns (h : s.Inv) (bs : List Nat) : (s.raiseOverruns bs).Inv :=
  ⟨h.memory, h.registers, h.decoding, h.configuration, by simp [h.records]⟩

/-! ## Plots and direct primitives -/

theorem State.Inv.plot (h : s.Inv) (x y : Int) (c : Byte) : (plot x y c s).Inv := by
  rw [plot_eq_withMem]
  exact h.withMem (wf_plot x y c h.memory)

theorem State.Inv.fillFromOrigin (h : s.Inv) (x y : Int) : (fillFromOrigin x y s).Inv := by
  have ha := linear_lt (wrap512_lt x) (wrap512_lt y)
  exact h.withMem (wf_fillSelected _ _ h.memory (by omega))

theorem State.Inv.fillRect (h : s.Inv) : (fillRect s).Inv := by
  rw [Machine.fillRect, plotRows_eq_withMem]
  exact h.withMem (wf_plotRows _ _ _ _ _ h.memory)

theorem State.Inv.fillBand (h : s.Inv) : (fillBand s).Inv := h.withMem (wf_fillBandRows _ _ _ _ h.memory)

theorem State.Inv.hlinePixel (h : s.Inv) : (hlinePixel s).Inv := by
  have ht := h.plot s.regs.blitX s.regs.blitY s.regs.pen
  obtain ⟨-, hx, -⟩ := ht.registers
  exact ht.withRegs (ht.registers.setBlitX (by omega))

theorem State.Inv.vlinePixel (h : s.Inv) : (vlinePixel s).Inv := by
  have ht := h.plot s.regs.blitX s.regs.blitY s.regs.pen
  obtain ⟨-, -, hy, -⟩ := ht.registers
  exact ht.withRegs (ht.registers.setBlitY (by omega))

/-- What one round keeps, all rounds keep. -/
theorem repeatTimes_keeps {P : State → Prop} {f : State → State} (hf : ∀ u, P u → P (f u)) (n : Nat) (h : P s) :
    P (repeatTimes f n s) := by
  induction n generalizing s with
  | zero => exact h
  | succ n ih => exact ih (hf s h)

theorem State.Inv.hline (h : s.Inv) : (hline s).Inv :=
  repeatTimes_keeps (P := State.Inv) (fun _ hu => hu.hlinePixel) _ h

theorem State.Inv.vline (h : s.Inv) : (vline s).Inv :=
  repeatTimes_keeps (P := State.Inv) (fun _ hu => hu.vlinePixel) _ h

/-! ## Register writes and START -/

theorem State.Inv.startRomDraw (h : s.Inv) : (startRomDraw s).Inv := h.withDecoder (startCursor_legal h.configuration)

/-- START with any code keeps the invariant (R160, R161). -/
theorem State.Inv.runStart (h : s.Inv) (code : Byte) : (runStart code s).Inv := by
  unfold Machine.runStart
  cases s.config.startOp code with
  | none => exact h.raise (by simp)
  | some o =>
    cases o with
    | romDraw => exact h.startRomDraw
    | fillAll => exact (h.fillFromOrigin 0 0).schedule .direct
    | fillFromXY => exact (h.fillFromOrigin _ _).schedule .direct
    | fillRect => exact h.fillRect.schedule .direct
    | fillBand => exact h.fillBand.schedule .direct
    | hline => exact h.hline.schedule .direct
    | vline => exact h.vline.schedule .direct

/-- The rule of every register keeps the invariant: what it stores is in the register's range. -/
theorem State.Inv.writeReg (h : s.Inv) (r : Reg) (v : BitVec 10) : (writeReg r v s).Inv := by
  have hr := h.registers
  have hv := value_le v
  have hw := wideValue_le v
  cases r with
  | start => exact h.runStart _
  | flip =>
    refine State.Inv.raiseIf (h.withRegs ?_) _ ?_
    · exact hr
    · simp
  | pen | penMode | penMask | clipCtrl | addrLo | addrMid | addrHi | priority | layerEnable | bgColor | priority2
  | layerEnable2 | bgColor2 | paletteMask l | transPen l | transMask l => exact h.withRegs hr
  | blitX => exact h.withRegs (hr.setBlitX (Int.natCast_nonneg _))
  | blitY => exact h.withRegs (hr.setBlitY (Int.natCast_nonneg _))
  | destLayer | rectWidth | rectHeight | lineLength | clipX | clipY | clipWidth | clipHeight =>
    exact h.withRegs (by simp [RegisterFile.Legal, hr, hv, hw])
  | scrollX l | scrollY l =>
    exact h.withRegs (by simp [RegisterFile.Legal, hr, bank_set (P := (· ≤ 1023)) _ l hv])
  | paletteBase l =>
    have hbank := bank_set (P := fun b : BitVec 16 => b.toNat ≤ 1023) (xs := s.regs.paletteBase) (by simp [hr]) l hw
    exact h.withRegs (by simp [RegisterFile.Legal, hr, hbank])

theorem State.Inv.applyRegister (h : s.Inv) (q : PortPair) (k : BitVec 6) (v : BitVec 10) :
    (applyRegister q k v s).Inv := by
  unfold Machine.applyRegister
  cases s.config.reg q k with
  | none => exact h.raise (by simp)
  | some r => exact h.writeReg r v

/-! ## Bitstream items -/

/-- The header sets sizes in their ranges, so only the cursor that it is given must be faithful (R201). -/
theorem State.Inv.runHeader (h : s.Inv) (hp ha : Nat) {c : BitCursor} (hc : c.port.Faithful s.config.rom) :
    (runHeader hp ha c s).Inv := by
  refine ((h.raiseIf _ (by simp)).raiseIf _ (by simp)).withDecoder (legal_running_iff.2 ⟨⟨?_, ?_⟩, ⟨?_, ?_⟩, ?_⟩)
  · exact one_le_clampTo (one_le_sizeOf hp) (by decide)
  · exact clampTo_le _ maxPenSize
  · exact one_le_clampTo (one_le_sizeOf ha) (by decide)
  · exact clampTo_le _ maxArgSize
  · simpa [initWorking] using hc

/-- The header's effect does not depend on where the decoder stood. -/
theorem runHeader_withDecoder (hp ha : Nat) (c : BitCursor) (s : State) (d : Decoder) :
    runHeader hp ha c (s.withDecoder d) = runHeader hp ha c s := by
  unfold Machine.runHeader State.checkPenSize State.checkArgSize State.raiseIf
  split_ifs <;> rfl

theorem State.Inv.finishInvocation (h : s.Inv) (cur : Nat) : (finishInvocation cur s).Inv :=
  ((h.withRegs h.registers).withDecoder rfl).schedule .rom

variable {w : Working}

theorem State.Inv.runPens (h : s.Inv) (hw : (Decoder.running w).legal s.config = true) (pens : List Byte) :
    (runPens pens s w).Inv := by
  rw [Machine.runPens, plotRun_eq_withMem]
  exact (h.withMem (wf_plotRun _ _ _ _ h.memory)).withDecoder hw

theorem State.Inv.runArgSize (h : s.Inv) (hw : (Decoder.running w).legal s.config = true) (f : Nat) :
    (runArgSize f s w).Inv := by
  obtain ⟨hpen, -, hcur⟩ := legal_running_iff.1 hw
  refine (h.raiseIf _ (by simp)).withDecoder (legal_running_iff.2 ⟨hpen, ⟨?_, ?_⟩, by simpa using hcur⟩)
  · exact one_le_clampTo (one_le_sizeOf f) (by decide)
  · exact clampTo_le _ maxArgSize

theorem State.Inv.runPenSize (h : s.Inv) (hw : (Decoder.running w).legal s.config = true) (f : Nat) :
    (runPenSize f s w).Inv := by
  obtain ⟨-, harg, hcur⟩ := legal_running_iff.1 hw
  refine (h.raiseIf _ (by simp)).withDecoder (legal_running_iff.2 ⟨⟨?_, ?_⟩, harg, by simpa using hcur⟩)
  · exact one_le_clampTo (one_le_sizeOf f) (by decide)
  · exact clampTo_le _ maxPenSize

theorem State.Inv.runUnknown (h : s.Inv) (op : BitVec 3) : (runUnknown op s w).Inv :=
  (h.raise (by simp)).finishInvocation _

/-- In front of a command, a command's meaning is its effect on the working values. -/
theorem onWorking_of_running (hd : s.decoder = .running w) (f : Working → State) : onWorking s f = .next (f w) := by
  simp [onWorking, hd]

/-- Every command of the bitstream completes and keeps the invariant (R200). -/
theorem exec_operands_inv (h : s.Inv) (hd : s.decoder = .running w) (cfg : Config) (a n : Nat) (op : BitVec 3)
    (p : BitPort) : ∃ t, exec (decodeOperands cfg a n op p).1 s = .next t ∧ t.Inv := by
  have hw : (Decoder.running w).legal s.config = true := hd ▸ h.decoding
  unfold decodeOperands
  cases cfg.operation op with
  | nextLine => exact ⟨_, onWorking_of_running hd _, h.withDecoder hw⟩
  | drawRun => exact ⟨_, onWorking_of_running hd _, h.runPens hw _⟩
  | copyRun => exact ⟨_, onWorking_of_running hd _, h.runPens hw _⟩
  | skip => exact ⟨_, onWorking_of_running hd _, h.withDecoder hw⟩
  | changeArgSize => exact ⟨_, onWorking_of_running hd _, h.runArgSize hw _⟩
  | changePenSize => exact ⟨_, onWorking_of_running hd _, h.runPenSize hw _⟩
  | unknown => exact ⟨_, onWorking_of_running hd _, h.runUnknown op⟩
  | stop => exact ⟨_, onWorking_of_running hd _, h.finishInvocation _⟩

/-! ## Steps inside an invocation -/

/-- A step in front of the header fetches eight bits and sets the working values (R201). -/
theorem step_inv_of_header {c : BitCursor} (h : s.Inv) (hd : s.decoder = .header c) :
    ∃ t, step s = .next t ∧ t.Inv := by
  have hc : c.port.Faithful s.config.rom := faithful_of_legal_header (hd ▸ h.decoding)
  refine ⟨_, step_of_instr (fetch_of_header hd), ?_⟩
  rw [runHeader_withDecoder]
  exact (h.raiseOverruns _).runHeader _ _ (decodeHeader_faithful hc)

/-- A step in front of a command fetches the command, which leaves a faithful cursor, and runs it. -/
theorem step_inv_of_running (h : s.Inv) (hd : s.decoder = .running w) : ∃ t, step s = .next t ∧ t.Inv := by
  obtain ⟨hpen, harg, hcur⟩ := legal_running_iff.1 (hd ▸ h.decoding)
  have hfetched : (Decoder.running { w with
      cursor := (decodeCommand s.config w.argSize w.penSize w.cursor.port).2.cursor }).legal s.config = true :=
    legal_running_iff.2 ⟨hpen, harg, decodeCommand_faithful w.argSize w.penSize hcur⟩
  rw [step_of_instr (fetch_of_running hd)]
  exact exec_operands_inv ((h.raiseOverruns _).withDecoder hfetched) rfl _ _ _ _ _

end

/-! ## The invariant at reset -/

theorem RegisterFile.reset_legal : RegisterFile.reset.Legal := by decide

/-- A fresh device of a legal configuration meets the invariant. -/
theorem fresh_inv {cfg : Config} (h : cfg.legal = true) : (State.fresh cfg).Inv :=
  ⟨Memory.wf_nil, RegisterFile.reset_legal, rfl, h, List.not_mem_nil⟩

/-! ## Steps outside an invocation -/

/-- Handing out a frame changes the diagnostics and the outputs only (R280, R282). -/
theorem State.Inv.compositeFrame {s : State} (h : s.Inv) : (compositeFrame s).Inv := by
  refine State.Inv.emit ?_ _
  unfold checkPriorities State.checkPriority
  split_ifs
  · exact (h.raiseIf _ (by simp)).raiseIf _ (by simp)
  · exact h.raiseIf _ (by simp)

theorem State.Inv.resetDevice {s : State} (h : s.Inv) : (resetDevice s).Inv := fresh_inv h.configuration

/-- `complete()` answers a next state only with a token pending; redeeming it changes PENDING and the outputs (R311). -/
theorem completeToken_inv {s t : State} (h : s.Inv) (ht : completeToken s = .next t) : t.Inv := by
  unfold completeToken at ht
  split_ifs at ht
  cases ht
  exact h

/-- An entry of the host whose serving answers a next state keeps the invariant (R65). -/
theorem step_inv_of_serve {s u t : State} {e : HostEntry} (h : u.Inv) (hf : fetch s = serve e u)
    (ht : step s = .next t) : t.Inv := by
  cases e with
  | select q b =>
    cases (step_of_instr hf).symm.trans ht
    exact h.withLatch q b
  | apply q d =>
    cases (step_of_instr hf).symm.trans ht
    exact h.applyRegister q _ _
  | wideWrite q w =>
    have hl := h.withLatch q (wordSelect w)
    have hx := exec_decodeWord (u.withLatch q (wordSelect w)) q w
    rw [State.withLatch_config, ← step_of_instr hf, ht] at hx
    cases hx
    exact hl.applyRegister q _ _
  | portWrite a b =>
    rw [step_of_instr hf] at ht
    split_ifs at ht <;> cases ht
    · exact h.applyRegister .a _ _
    · exact h.withLatch .a b
  | readStatus =>
    cases (step_of_done hf).symm.trans ht
    exact h.emit _
  | get f =>
    cases (step_of_done hf).symm.trans ht
    exact h.emit _
  | complete => exact completeToken_inv h ((step_of_done hf).symm.trans ht)
  | compositeFrame =>
    cases (step_of_done hf).symm.trans ht
    exact h.compositeFrame
  | reset =>
    cases (step_of_done hf).symm.trans ht
    exact h.resetDevice

/-! ## The statements -/

/-- Settles O54: a step runs the header, a command, an entry of the host, or nothing, and each keeps the invariant. -/
theorem invariantIsKeptByEveryStep : Obligations.InvariantIsKeptByEveryStep := by
  intro s t h ht
  cases hd : s.decoder with
  | header c =>
    obtain ⟨u, hu, hinv⟩ := step_inv_of_header h hd
    cases hu.symm.trans ht
    exact hinv
  | running w =>
    obtain ⟨u, hu, hinv⟩ := step_inv_of_running h hd
    cases hu.symm.trans ht
    exact hinv
  | idle =>
    cases hi : s.inbox with
    | nil =>
      cases (step_of_idle (fetch_of_no_entry hd hi)).symm.trans ht
      exact h
    | cons e es => exact step_inv_of_serve (h.withInbox es) (fetch_of_entry hd hi) ht

/-- Settles O13: each write is its rule, and each pair's index is laid to the register. -/
theorem byteWritesStoreTheirBits : Obligations.ByteWritesStoreTheirBits := by
  intro s v
  refine ⟨rfl, rfl, rfl, rfl, rfl, rfl, rfl, ?_, ?_, ?_⟩
  · exact decodeWord_pair (r := .pen) (by decide) rfl
  · exact decodeWord_pair (r := .priority) (by decide) rfl
  · exact decodeWord_pair (r := .bgColor) (by decide) rfl

/-- Settles O51: outside an invocation the entry is served, and serving it only hands something out. -/
theorem statusAndGettersChangeNothing : Obligations.StatusAndGettersChangeNothing := by
  intro s es hd
  refine ⟨fun hi => ?status, fun f hi => ?getter⟩
  case status =>
    rw [step_of_done (fetch_of_entry hd hi), readStatus, statusByte_eq]
    rfl
  case getter =>
    rw [step_of_done (fetch_of_entry hd hi), getField, fieldValue_eq_getterValue]
    rfl

/-- Settles O55: the invariant of a fresh device needs of its configuration only that it is legal. -/
theorem invariantHoldsAfterReset : Obligations.InvariantHoldsAfterReset :=
  ⟨fun _ h => fresh_inv h, fresh_inv Config.default_legal⟩

end Sys2Proof.Machine

/-! Proofs of the statements on 20_memory.md: what a fetch answers and leaves at and past the end of the ROM (R72, R74,
R75, R202), and that no step changes the configuration (R85). -/

namespace Sys2Proof

/-! ## The bits of a fetched field -/

/-- Inside the ROM a bit is the bit of its byte (R72). -/
theorem romBit_inside {rom : List Byte} {b : Nat} (h : b < 8 * rom.length) :
    romBit rom b = (rom.getD (b / 8) 0).getLsbD (7 - b % 8) := by
  have hbyte : b / 8 < rom.length := by omega
  simp [romBit, hbyte]

/-- The bits that were fetched before are shifted up by the width of the field (R203). -/
theorem fetchFrom_testBit_high (rom : List Byte) (n v : Nat) (p : BitPort) (j : Nat) :
    (fetchFrom rom n v p).1.testBit (n + j) = v.testBit j := by
  induction n generalizing v p j with
  | zero => simp [fetchFrom]
  | succ n ih =>
    have hhalf : (2 * v + (fetchBit rom p).1.toNat) / 2 = v := by
      have := Bool.toNat_le (fetchBit rom p).1
      omega
    rw [fetchFrom, show n + 1 + j = n + (j + 1) by omega, ih, Nat.testBit_succ, hhalf]

/-- The `i`-th fetched bit is bit `n - 1 - i` of the field: the first is the most significant (R74). -/
theorem fetchFrom_testBit (rom : List Byte) {n i : Nat} (v : Nat) (p : BitPort) (hi : i < n) :
    (fetchFrom rom n v p).1.testBit (n - 1 - i) = romBit rom (p.cursor.cur + i) := by
  induction n generalizing v p i with
  | zero => omega
  | succ n ih =>
    rw [fetchFrom]
    cases i with
    | zero =>
      have hfirst := fetchFrom_testBit_high rom n (2 * v + (fetchBit rom p).1.toNat) (fetchBit rom p).2 0
      rw [show n + 1 - 1 - 0 = n + 0 by omega, hfirst, fetchBit_value]
      cases romBit rom p.cursor.cur <;> simp [Nat.testBit_zero]
    | succ i =>
      rw [show n + 1 - 1 - (i + 1) = n - 1 - i by omega, ih _ _ (by omega), fetchBit_cur,
        show p.cursor.cur + 1 + i = p.cursor.cur + (i + 1) by omega]

theorem fetchField_testBit (rom : List Byte) {n i : Nat} (p : BitPort) (hi : i < n) :
    (fetchField rom n p).1.testBit (n - 1 - i) = romBit rom (p.cursor.cur + i) := fetchFrom_testBit rom 0 p hi

/-! ## The port after a fetch -/

/-- The first bit address at or after a cursor that is past the end of the ROM. -/
def firstOverrun (rom : List Byte) (cur : Nat) : Nat := max cur (8 * rom.length)

/-- The port after `n` more bits: the cursor is `n` further, and the first bit past the end, if it is among them, is
recorded unless one was before (R202). -/
def BitPort.advance (rom : List Byte) (n : Nat) (p : BitPort) : BitPort where
  cursor :=
    { cur := p.cursor.cur + n
      overrunLogged := p.cursor.overrunLogged || decide (firstOverrun rom p.cursor.cur < p.cursor.cur + n) }
  raised := p.raised ++
    (if p.cursor.overrunLogged = false ∧ firstOverrun rom p.cursor.cur < p.cursor.cur + n
      then [firstOverrun rom p.cursor.cur] else [])

theorem BitPort.advance_zero (rom : List Byte) (p : BitPort) : p.advance rom 0 = p := by
  have hnone : ¬ firstOverrun rom p.cursor.cur < p.cursor.cur := by unfold firstOverrun; omega
  simp [BitPort.advance, hnone]

/-- Advancing twice is advancing once: only one of the two parts can be the first to pass the end. -/
theorem BitPort.advance_advance (rom : List Byte) (m n : Nat) (p : BitPort) :
    (p.advance rom m).advance rom n = p.advance rom (m + n) := by
  obtain ⟨⟨cur, logged⟩, raised⟩ := p
  by_cases hm : firstOverrun rom cur < cur + m
  · have hmn : firstOverrun rom cur < cur + (m + n) := by omega
    simp [BitPort.advance, hm, hmn, Nat.add_assoc]
  · -- No bit of the first part is past the end, so the first one that is lies in the second part, if it has any.
    by_cases hn : firstOverrun rom cur < cur + (m + n)
    · have hsame : firstOverrun rom (cur + m) = firstOverrun rom cur := by unfold firstOverrun at *; omega
      simp [BitPort.advance, hm, hn, hsame, Nat.add_assoc]
    · have hnone : ¬ firstOverrun rom (cur + m) < cur + (m + n) := by unfold firstOverrun at *; omega
      simp [BitPort.advance, hm, hn, hnone, Nat.add_assoc]

/-- A bit fetch advances the port by one bit (R202). -/
theorem fetchBit_port (rom : List Byte) (p : BitPort) : (fetchBit rom p).2 = p.advance rom 1 := by
  obtain ⟨⟨cur, logged⟩, raised⟩ := p
  by_cases hin : cur / 8 < rom.length
  · have hnone : ¬ firstOverrun rom cur < cur + 1 := by unfold firstOverrun; omega
    simp [fetchBit, BitPort.advance, hin, hnone]
  · have hfirst : firstOverrun rom cur = cur := by unfold firstOverrun; omega
    cases logged <;> simp [fetchBit, BitPort.advance, hin, hfirst]

theorem fetchFrom_port (rom : List Byte) (n v : Nat) (p : BitPort) :
    (fetchFrom rom n v p).2 = p.advance rom n := by
  induction n generalizing v p with
  | zero => exact (p.advance_zero rom).symm
  | succ n ih => rw [fetchFrom, ih, fetchBit_port, BitPort.advance_advance, Nat.add_comm]

/-- A field fetch advances the port by the width of the field (R203). -/
theorem fetchField_port (rom : List Byte) (n : Nat) (p : BitPort) : (fetchField rom n p).2 = p.advance rom n :=
  fetchFrom_port rom n 0 p

/-- Settles O42: the bits of the field are ROM bits, with the sentinel past the end, and the port is advanced by `n`. -/
theorem overrunReadsOnesAndIsRecordedOnce : Obligations.OverrunReadsOnesAndIsRecordedOnce := by
  intro rom n q
  refine ⟨fun i hi hpast => ?sentinel, fun i hi hin => ?inside, ?port⟩
  case sentinel =>
    rw [fetchField_testBit rom q hi]
    exact romBit_past_end (by omega)
  case inside => rw [fetchField_testBit rom q hi, romBit_inside hin]
  case port =>
    rw [fetchField_port]
    exact ⟨rfl, rfl, rfl⟩

end Sys2Proof

namespace Sys2Proof.Machine

/-! ## Each operation leaves the configuration -/

section
variable (s : State)

/-- A plot changes the memory only, so the configuration stays. -/
@[simp] theorem plot_config (x y : Int) (c : Byte) : (plot x y c s).config = s.config := by
  rw [plot_eq_withMem, State.withMem_config]

@[simp] theorem plotRun_config (y : Int) (d : Dir) (cs : List Byte) (x : Int) :
    (plotRun y d cs x s).config = s.config := by
  rw [plotRun_eq_withMem, State.withMem_config]

@[simp] theorem fillRect_config : (fillRect s).config = s.config := by
  rw [fillRect, plotRows_eq_withMem, State.withMem_config]

theorem hlinePixel_config : (hlinePixel s).config = s.config := plot_config s _ _ _

theorem vlinePixel_config : (vlinePixel s).config = s.config := plot_config s _ _ _

@[simp] theorem hline_config : (hline s).config = s.config :=
  repeatTimes_keeps (P := fun u => u.config = s.config) (fun u hu => (hlinePixel_config u).trans hu) _ rfl

@[simp] theorem vline_config : (vline s).config = s.config :=
  repeatTimes_keeps (P := fun u => u.config = s.config) (fun u hu => (vlinePixel_config u).trans hu) _ rfl

/-- START leaves the configuration, whatever its code is (R160, R161). -/
@[simp] theorem runStart_config (code : Byte) : (runStart code s).config = s.config := by
  unfold runStart
  cases s.config.startOp code with
  | none => rfl
  | some o =>
    cases o with
    | romDraw | fillAll | fillFromXY | fillBand => rfl
    | fillRect => exact fillRect_config s
    | hline => exact hline_config s
    | vline => exact vline_config s

/-- The rule of a register writes the registers; only START does more, and FLIP may raise a record. -/
@[simp] theorem writeReg_config (r : Reg) (v : BitVec 10) : (writeReg r v s).config = s.config := by
  cases r with
  | start => exact runStart_config s _
  | flip => exact State.raiseIf_config _ _ _
  | _ => rfl

@[simp] theorem applyRegister_config (q : PortPair) (k : BitVec 6) (v : BitVec 10) :
    (applyRegister q k v s).config = s.config := by
  unfold applyRegister
  cases s.config.reg q k with
  | none => rfl
  | some r => exact writeReg_config s r v

@[simp] theorem runHeader_config (hp ha : Nat) (c : BitCursor) : (runHeader hp ha c s).config = s.config := by
  simp [runHeader, State.checkPenSize, State.checkArgSize]

theorem runPens_config (pens : List Byte) (w : Working) : (runPens pens s w).config = s.config :=
  plotRun_config s _ _ _ _

@[simp] theorem compositeFrame_config : (compositeFrame s).config = s.config := by
  unfold compositeFrame checkPriorities State.checkPriority
  dsimp only
  split_ifs <;> simp

end

/-! ## Each step leaves the configuration -/

section
variable {s t : State}

/-- A command that completes leaves the configuration if its effect does, wherever the decoder stood. -/
theorem onWorking_config {f : Working → State} (h : onWorking s f = .next t) (hf : ∀ w, (f w).config = s.config) :
    t.config = s.config := by
  unfold onWorking at h
  split at h
  · cases h
    exact hf _
  · cases h
  · cases h

/-- Every command of the bitstream leaves the configuration (R200). -/
theorem exec_operands_config {cfg : Config} {a n : Nat} {op : BitVec 3} {p : BitPort}
    (h : exec (decodeOperands cfg a n op p).1 s = .next t) : t.config = s.config := by
  unfold decodeOperands at h
  cases ho : cfg.operation op <;> rw [ho] at h
  case nextLine | skip | stop | unknown => exact onWorking_config h (fun _ => rfl)
  case drawRun | copyRun => exact onWorking_config h (runPens_config s _)
  case changeArgSize | changePenSize => exact onWorking_config h (fun _ => State.raiseIf_config _ _ _)

/-- Serving an entry of the host leaves the configuration (R65); reset keeps it too (R340). -/
theorem step_config_of_serve {u : State} {e : HostEntry} (hf : fetch s = serve e u) (ht : step s = .next t) :
    t.config = u.config := by
  cases e with
  | select q b =>
    cases (step_of_instr hf).symm.trans ht
    exact State.withLatch_config u q b
  | apply q d =>
    cases (step_of_instr hf).symm.trans ht
    exact applyRegister_config u q _ _
  | wideWrite q w =>
    have hx := exec_decodeWord (u.withLatch q (wordSelect w)) q w
    rw [State.withLatch_config, ← step_of_instr hf, ht] at hx
    cases hx
    simp
  | portWrite a b =>
    rw [step_of_instr hf] at ht
    split_ifs at ht <;> cases ht
    · exact applyRegister_config u .a _ _
    · exact State.withLatch_config u .a b
  | readStatus | get f | reset =>
    cases (step_of_done hf).symm.trans ht
    rfl
  | complete =>
    have hc : completeToken u = .next t := (step_of_done hf).symm.trans ht
    unfold completeToken at hc
    split_ifs at hc
    cases hc
    rfl
  | compositeFrame =>
    cases (step_of_done hf).symm.trans ht
    exact compositeFrame_config u

end

/-- Settles O59: a step runs the header, a command, an entry of the host, or nothing, and each leaves the
configuration. -/
theorem configurationNeverChanges : Obligations.ConfigurationNeverChanges := by
  intro s t ht
  cases hd : s.decoder with
  | header c =>
    cases (step_of_instr (fetch_of_header hd)).symm.trans ht
    simp
  | running w =>
    rw [step_of_instr (fetch_of_running hd)] at ht
    rw [exec_operands_config ht, State.withDecoder_config, State.raiseOverruns_config]
  | idle =>
    cases hi : s.inbox with
    | nil =>
      cases (step_of_idle (fetch_of_no_entry hd hi)).symm.trans ht
      rfl
    | cons e es => rw [step_config_of_serve (fetch_of_entry hd hi) ht, State.withInbox_config]

end Sys2Proof.Machine

/-! Proofs of the statements on 40_register_protocol.md: what a select and the coordinate writes store (R131, R143 to
R145, R150 to R153), where a ROM draw starts (R160), that a wide write is a select and an apply (R137), and that
`pen_mask` is read by nothing but its own getter (R149). -/

namespace Sys2Proof

/-! ## Host words -/

/-- The select byte and the apply byte of a word make up the word (R137). -/
theorem pairWord_wordSelect_wordData (w : BitVec 16) : pairWord (wordSelect w) (wordData w) = w :=
  (BitVec.extractLsb'_append_extractLsb'_eq_extractLsb' (by decide)).trans BitVec.extractLsb'_eq_self

/-- The fetch unit in bits is 8 or 16, as the configuration names it (R8). -/
theorem Config.unitBits_eq_unit (cfg : Config) : cfg.unitBits = Claims.unit cfg := by
  unfold Config.unitBits Claims.unit
  cases cfg.fetchUnit <;> rfl

end Sys2Proof

namespace Sys2Proof.Machine

/-! ## Runs -/

/-- A run whose first step answers a next state goes on from there. -/
theorem run_succ_of_step {s t : State} (h : step s = .next t) (k : Nat) :
    Host.Core.run Sys2Proof.core (k + 1) s = Host.Core.run Sys2Proof.core k t := by
  have hcore : Sys2Proof.core.step s = .next t := h
  simp only [Host.Core.run, hcore]

/-! ## The entries of the two-phase protocol -/

section
variable {s : State} (hd : s.decoder = .idle) (p : PortPair) (es : List HostEntry)
include hd

/-- A select entry sets its latch (R131). -/
theorem step_select (b : Byte) :
    step (s.withInbox (.select p b :: es)) = .next ((s.withInbox es).withLatch p b) :=
  step_of_instr (fetch_of_entry (s := s.withInbox (.select p b :: es)) hd rfl)

/-- An apply entry acts on the latched select byte and its data byte (R132). -/
theorem step_apply (d : Byte) : step (s.withInbox (.apply p d :: es)) = .next (applyByte p d (s.withInbox es)) :=
  step_of_instr (fetch_of_entry (s := s.withInbox (.apply p d :: es)) hd rfl)

/-- A wide write sets the latch and then acts on the word's index and value (R137). -/
theorem step_wideWrite (w : BitVec 16) :
    step (s.withInbox (.wideWrite p w :: es)) =
      .next (applyRegister p (wordIndex w) (combinedValue (wordCarry w) (wordData w))
        ((s.withInbox es).withLatch p (wordSelect w))) := by
  rw [← exec_decodeWord, State.withLatch_config]
  exact step_of_instr (fetch_of_entry (s := s.withInbox (.wideWrite p w :: es)) hd rfl)

end

/-- With the select byte of a word latched, an apply of its other byte acts on the word's index and value (R132). -/
theorem applyByte_withLatch (p : PortPair) (w : BitVec 16) (s : State) :
    applyByte p (wordData w) (s.withLatch p (wordSelect w)) =
      applyRegister p (wordIndex w) (combinedValue (wordCarry w) (wordData w)) (s.withLatch p (wordSelect w)) := by
  simp only [applyByte, State.latch_withLatch, pairWord_wordSelect_wordData]

theorem State.withLatch_withInbox (s : State) (p : PortPair) (b : Byte) (es : List HostEntry) :
    (s.withLatch p b).withInbox es = (s.withInbox es).withLatch p b := by cases p <;> rfl

/-! ## Nothing reads `pen_mask`: each operation commutes with another value of it -/

/-- Outcomes whose states differ in `pen_mask` only look the same with it blanked out. -/
theorem hidePenMask_congr {t u : State} {b : Byte} (h : t = Claims.withPenMask u b) :
    Claims.hidePenMask (.next t) = Claims.hidePenMask (.next u) := by
  rw [h]; rfl

section
variable (s : State) (b : Byte)

@[simp] theorem withPenMask_config : (Claims.withPenMask s b).config = s.config := rfl
@[simp] theorem withPenMask_decoder : (Claims.withPenMask s b).decoder = s.decoder := rfl
@[simp] theorem withPenMask_pending : (Claims.withPenMask s b).pending = s.pending := rfl
@[simp] theorem withPenMask_latch (q : PortPair) : (Claims.withPenMask s b).latch q = s.latch q := by cases q <;> rfl

theorem raiseIf_withPenMask (c : Bool) (d : Diag) :
    (Claims.withPenMask s b).raiseIf c d = Claims.withPenMask (s.raiseIf c d) b := by cases c <;> rfl

theorem withLatch_withPenMask (q : PortPair) (c : Byte) :
    (Claims.withPenMask s b).withLatch q c = Claims.withPenMask (s.withLatch q c) b := by cases q <;> rfl

/-- A plot reads swap, clip and layer selection (R240 to R244). -/
theorem plot_withPenMask (x y : Int) (c : Byte) :
    plot x y c (Claims.withPenMask s b) = Claims.withPenMask (plot x y c s) b := by
  dsimp only [plot, Claims.withPenMask]
  split_ifs <;> rfl

theorem plotRun_withPenMask (y : Int) (d : Dir) (cs : List Byte) (x : Int) :
    plotRun y d cs x (Claims.withPenMask s b) = Claims.withPenMask (plotRun y d cs x s) b := by
  induction cs generalizing x s with
  | nil => rfl
  | cons c cs ih => rw [plotRun, plot_withPenMask, ih, plotRun]

theorem plotRows_withPenMask (x y : Int) (c : Byte) (cols rows : Nat) :
    plotRows x y c cols rows (Claims.withPenMask s b) = Claims.withPenMask (plotRows x y c cols rows s) b := by
  induction rows generalizing y s with
  | zero => rfl
  | succ n ih => rw [plotRows, plotRun_withPenMask, ih, plotRows]

theorem fillRect_withPenMask : fillRect (Claims.withPenMask s b) = Claims.withPenMask (fillRect s) b :=
  plotRows_withPenMask s b _ _ _ _ _

theorem hlinePixel_withPenMask : hlinePixel (Claims.withPenMask s b) = Claims.withPenMask (hlinePixel s) b :=
  congrArg (fun t : State => t.withRegs { t.regs with blitX := t.regs.blitX + 1 })
    (plot_withPenMask s b s.regs.blitX s.regs.blitY s.regs.pen)

theorem vlinePixel_withPenMask : vlinePixel (Claims.withPenMask s b) = Claims.withPenMask (vlinePixel s) b :=
  congrArg (fun t : State => t.withRegs { t.regs with blitY := t.regs.blitY + 1 })
    (plot_withPenMask s b s.regs.blitX s.regs.blitY s.regs.pen)

/-- What one round commutes with, all rounds commute with. -/
theorem repeatTimes_withPenMask {f : State → State}
    (hf : ∀ u, f (Claims.withPenMask u b) = Claims.withPenMask (f u) b) (n : Nat) :
    repeatTimes f n (Claims.withPenMask s b) = Claims.withPenMask (repeatTimes f n s) b := by
  induction n generalizing s with
  | zero => rfl
  | succ n ih => rw [repeatTimes, hf, ih, repeatTimes]

theorem hline_withPenMask : hline (Claims.withPenMask s b) = Claims.withPenMask (hline s) b :=
  repeatTimes_withPenMask s b (fun u => hlinePixel_withPenMask u b) _

theorem vline_withPenMask : vline (Claims.withPenMask s b) = Claims.withPenMask (vline s) b :=
  repeatTimes_withPenMask s b (fun u => vlinePixel_withPenMask u b) _

/-- No start operation reads `pen_mask` (R160, R161). -/
theorem runStart_withPenMask (code : Byte) :
    runStart code (Claims.withPenMask s b) = Claims.withPenMask (runStart code s) b := by
  unfold runStart
  rw [withPenMask_config]
  cases s.config.startOp code with
  | none => rfl
  | some o =>
    cases o with
    | romDraw | fillAll | fillFromXY | fillBand => rfl
    | fillRect => exact congrArg (State.schedule · .direct) (fillRect_withPenMask s b)
    | hline => exact congrArg (State.schedule · .direct) (hline_withPenMask s b)
    | vline => exact congrArg (State.schedule · .direct) (vline_withPenMask s b)

/-- The rule of every register but PEN_MASK leaves `pen_mask` and does not read it. -/
theorem writeReg_withPenMask {r : Reg} (hr : r ≠ .penMask) (v : BitVec 10) :
    writeReg r v (Claims.withPenMask s b) = Claims.withPenMask (writeReg r v s) b := by
  cases r with
  | penMask => exact absurd rfl hr
  | start => exact runStart_withPenMask s b _
  | flip => exact raiseIf_withPenMask (s.withRegs { s.regs with flip := flipOf v }) b _ _
  | _ => rfl

/-- PEN_MASK overwrites `pen_mask`, so what it was before is lost (R149). -/
theorem writePenMask_withPenMask (v : BitVec 10) : writePenMask v (Claims.withPenMask s b) = writePenMask v s := rfl

theorem hidePenMask_writeReg (r : Reg) (v : BitVec 10) :
    Claims.hidePenMask (.next (writeReg r v (Claims.withPenMask s b))) =
      Claims.hidePenMask (.next (writeReg r v s)) := by
  by_cases hr : r = .penMask
  · subst hr
    exact congrArg (fun t => Claims.hidePenMask (.next t)) (writePenMask_withPenMask s b v)
  · exact hidePenMask_congr (writeReg_withPenMask s b hr v)

theorem hidePenMask_applyRegister (q : PortPair) (k : BitVec 6) (v : BitVec 10) :
    Claims.hidePenMask (.next (applyRegister q k v (Claims.withPenMask s b))) =
      Claims.hidePenMask (.next (applyRegister q k v s)) := by
  unfold applyRegister
  rw [withPenMask_config]
  cases s.config.reg q k with
  | none => rfl
  | some r => exact hidePenMask_writeReg s b r v

theorem hidePenMask_applyByte (q : PortPair) (d : Byte) :
    Claims.hidePenMask (.next (applyByte q d (Claims.withPenMask s b))) =
      Claims.hidePenMask (.next (applyByte q d s)) := by
  rw [applyByte, withPenMask_latch]
  exact hidePenMask_applyRegister s b q _ _

/-! ## Bitstream items -/

theorem runHeader_withPenMask (hp ha : Nat) (c : BitCursor) :
    runHeader hp ha c (Claims.withPenMask s b) = Claims.withPenMask (runHeader hp ha c s) b := by
  unfold runHeader State.checkPenSize State.checkArgSize
  rw [raiseIf_withPenMask, raiseIf_withPenMask]
  rfl

theorem runPens_withPenMask (pens : List Byte) (w : Working) :
    runPens pens (Claims.withPenMask s b) w = Claims.withPenMask (runPens pens s w) b := by
  unfold runPens
  rw [plotRun_withPenMask]
  rfl

/-- An effect on the working values that does not read `pen_mask` makes a command that does not. -/
theorem hidePenMask_onWorking {f : State → Working → State}
    (hf : ∀ w, f (Claims.withPenMask s b) w = Claims.withPenMask (f s w) b) :
    Claims.hidePenMask (onWorking (Claims.withPenMask s b) (f (Claims.withPenMask s b))) =
      Claims.hidePenMask (onWorking s (f s)) := by
  unfold onWorking
  rw [withPenMask_decoder]
  cases s.decoder with
  | idle | header c => rfl
  | running w => exact hidePenMask_congr (hf w)

/-- No command of the bitstream reads `pen_mask` (R204 to R212). -/
theorem hidePenMask_exec_operands (cfg : Config) (a n : Nat) (op : BitVec 3) (p : BitPort) :
    Claims.hidePenMask (exec (decodeOperands cfg a n op p).1 (Claims.withPenMask s b)) =
      Claims.hidePenMask (exec (decodeOperands cfg a n op p).1 s) := by
  unfold decodeOperands
  cases cfg.operation op with
  | nextLine => exact hidePenMask_onWorking s b (f := runNext) (fun _ => rfl)
  | drawRun => exact hidePenMask_onWorking s b (f := runDraw _ _) (runPens_withPenMask s b _)
  | copyRun => exact hidePenMask_onWorking s b (f := runCopy (_ :: _)) (runPens_withPenMask s b _)
  | skip => exact hidePenMask_onWorking s b (f := runSkip _) (fun _ => rfl)
  | changeArgSize =>
    exact hidePenMask_onWorking s b (f := runArgSize _)
      (fun _ => congrArg (State.withDecoder · _) (raiseIf_withPenMask s b _ _))
  | changePenSize =>
    exact hidePenMask_onWorking s b (f := runPenSize _)
      (fun _ => congrArg (State.withDecoder · _) (raiseIf_withPenMask s b _ _))
  | unknown => exact hidePenMask_onWorking s b (f := runUnknown op) (fun _ => rfl)
  | stop => exact hidePenMask_onWorking s b (f := runStop) (fun _ => rfl)

/-! ## Entries of the host -/

/-- The compositor reads priorities, enables, background, scroll, palette and transparency (R280 to R285). -/
theorem compositeFrame_withPenMask :
    compositeFrame (Claims.withPenMask s b) = Claims.withPenMask (compositeFrame s) b := by
  have hcheck : checkPriorities (Claims.withPenMask s b) = Claims.withPenMask (checkPriorities s) b := by
    simp only [checkPriorities, State.checkPriority, raiseIf_withPenMask]
    exact (apply_ite (Claims.withPenMask · b) _ _ _).symm
  rw [compositeFrame, hcheck]
  rfl

/-- Every getter but that of `pen_mask` reads another field (R66). -/
theorem getField_withPenMask {f : Field} (hf : f ≠ .penMask) :
    getField f (Claims.withPenMask s b) = Claims.withPenMask (getField f s) b := by
  have hvalue : fieldValue (Claims.withPenMask s b) f = fieldValue s f := by
    cases f with
    | penMask => exact absurd rfl hf
    | _ => rfl
  rw [getField, hvalue]
  rfl

theorem hidePenMask_completeToken :
    Claims.hidePenMask (completeToken (Claims.withPenMask s b)) = Claims.hidePenMask (completeToken s) := by
  unfold completeToken
  rw [withPenMask_pending]
  split_ifs <;> rfl

end

/-! ## Steps -/

section
variable {s t : State}

/-- Serving any entry of the host but the getter of `pen_mask` does not read it (R65). -/
theorem hidePenMask_step_of_serve {u : State} {b : Byte} {e : HostEntry} (he : e ≠ .get .penMask)
    (hs : fetch s = serve e u) (ht : fetch t = serve e (Claims.withPenMask u b)) :
    Claims.hidePenMask (step t) = Claims.hidePenMask (step s) := by
  cases e with
  | select q c =>
    rw [step_of_instr hs, step_of_instr ht]
    exact hidePenMask_congr (withLatch_withPenMask u b q c)
  | apply q d =>
    rw [step_of_instr hs, step_of_instr ht]
    exact hidePenMask_applyByte u b q d
  | wideWrite q w =>
    have hx := exec_decodeWord (u.withLatch q (wordSelect w)) q w
    have hy := exec_decodeWord (Claims.withPenMask (u.withLatch q (wordSelect w)) b) q w
    rw [State.withLatch_config] at hx
    rw [withPenMask_config, State.withLatch_config] at hy
    rw [step_of_instr hs, step_of_instr ht, withPenMask_config, withLatch_withPenMask, hx, hy]
    exact hidePenMask_applyRegister _ b q _ _
  | portWrite a c =>
    rw [step_of_instr hs, step_of_instr ht, withPenMask_config]
    split_ifs
    · exact hidePenMask_applyByte u b .a c
    · exact hidePenMask_congr (withLatch_withPenMask u b .a c)
  | readStatus | reset =>
    rw [step_of_done hs, step_of_done ht]
    rfl
  | get f =>
    rw [step_of_done hs, step_of_done ht]
    exact hidePenMask_congr (getField_withPenMask u b (fun hf => he (congrArg _ hf)))
  | complete =>
    rw [step_of_done hs, step_of_done ht]
    exact hidePenMask_completeToken u b
  | compositeFrame =>
    rw [step_of_done hs, step_of_done ht]
    exact hidePenMask_congr (compositeFrame_withPenMask u b)

variable (b : Byte)

theorem hidePenMask_step_of_header {c : BitCursor} (hd : s.decoder = .header c) :
    Claims.hidePenMask (step (Claims.withPenMask s b)) = Claims.hidePenMask (step s) := by
  rw [step_of_instr (fetch_of_header hd), step_of_instr (fetch_of_header (s := Claims.withPenMask s b) hd)]
  exact hidePenMask_congr (runHeader_withPenMask ((s.raiseOverruns _).withDecoder _) b _ _ _)

theorem hidePenMask_step_of_running {w : Working} (hd : s.decoder = .running w) :
    Claims.hidePenMask (step (Claims.withPenMask s b)) = Claims.hidePenMask (step s) := by
  rw [step_of_instr (fetch_of_running hd), step_of_instr (fetch_of_running (s := Claims.withPenMask s b) hd)]
  exact hidePenMask_exec_operands ((s.raiseOverruns _).withDecoder _) b _ _ _ _ _

end

/-! ## The statements -/

/-- Settles O60: a step runs the header, a command, an entry of the host, or nothing, and of these only the getter of
`pen_mask` reads it. -/
theorem penMaskIsNeverRead : Obligations.PenMaskIsNeverRead := by
  refine ⟨fun s v => ⟨decodeWord_pair (r := .penMask) (by decide) rfl, rfl⟩, fun s b hserves => ?_⟩
  cases hd : s.decoder with
  | header c => exact hidePenMask_step_of_header b hd
  | running w => exact hidePenMask_step_of_running b hd
  | idle =>
    cases hi : s.inbox with
    | nil =>
      rw [step_of_idle (fetch_of_no_entry hd hi), step_of_idle (fetch_of_no_entry (s := Claims.withPenMask s b) hd hi)]
      rfl
    | cons e es =>
      have he : e ≠ .get .penMask := by
        rintro rfl
        exact hserves ⟨hd, es, hi⟩
      exact hidePenMask_step_of_serve he (fetch_of_entry hd hi)
        (fetch_of_entry (s := Claims.withPenMask s b) hd hi)

/-- Settles O10: both runs set the latch and then act on the word's index and value. -/
theorem wideWriteIsSelectThenApply : Obligations.WideWriteIsSelectThenApply := by
  intro s p w es hd
  have hlatched : (s.withLatch p (wordSelect w)).decoder = .idle := (State.withLatch_decoder s p _).trans hd
  have hselect := step_select hd p (.apply p (wordData w) :: es) (wordSelect w)
  have happly := step_apply hlatched p es (wordData w)
  have hwide := step_wideWrite hd p es w
  rw [State.withLatch_withInbox, State.withLatch_withInbox] at happly
  rw [← applyByte_withLatch] at hwide
  exact ((run_succ_of_step hselect 1).trans (run_succ_of_step happly 0)).trans hwide.symm

/-- Settles O12: each write is its rule, and each pair's index is laid to the register. -/
theorem coordinateWritesStoreTheValue : Obligations.CoordinateWritesStoreTheValue := by
  intro s v
  refine ⟨rfl, rfl, rfl, rfl, rfl, rfl, rfl, ?_, ?_, ?_, ?_, ?_, ?_, ?_⟩
  · exact decodeWord_pair (r := .blitY) (by decide) rfl
  · exact decodeWord_pair (r := .rectWidth) (by decide) rfl
  · exact decodeWord_pair (r := .rectHeight) (by decide) rfl
  · exact decodeWord_pair (r := .clipX) (by decide) rfl
  · exact decodeWord_pair (r := .clipY) (by decide) rfl
  · exact decodeWord_pair (r := .clipWidth) (by decide) rfl
  · exact decodeWord_pair (r := .clipHeight) (by decide) rfl

/-- Settles O21: a select is the update of its pair's latch, which looks at nothing else of the state. -/
theorem selectSetsItsLatchOnly : Obligations.SelectSetsItsLatchOnly := fun _ _ => ⟨rfl, rfl⟩

/-- Settles O31: the start cursor is in units of the configuration's fetch unit. -/
theorem romDrawStartsAtTheReducedAddress : Obligations.RomDrawStartsAtTheReducedAddress := by
  intro s c
  rw [← Config.unitBits_eq_unit]
  rfl

end Sys2Proof.Machine

/-! Proofs of the statements on 41_bitstream_decoder.md: when an invocation ends (R215, R354), and what a header
followed by a Stop changes (R216). -/

namespace Sys2Proof

/-! ## What the decoders read -/

/-- Fetching `m + n` bits is fetching `m` bits and then `n` more (R203). -/
theorem fetchFrom_add (rom : List Byte) (m n v : Nat) (p : BitPort) :
    fetchFrom rom (m + n) v p = fetchFrom rom n (fetchFrom rom m v p).1 (fetchFrom rom m v p).2 := by
  induction m generalizing v p with
  | zero => rw [Nat.zero_add]; rfl
  | succ m ih => rw [Nat.succ_add, fetchFrom, ih, fetchFrom]

/-- Bits that are all inside the ROM only move the cursor. -/
theorem BitPort.advance_inside {rom : List Byte} {n : Nat} {p : BitPort} (h : p.cursor.cur + n ≤ 8 * rom.length) :
    p.advance rom n = { p with cursor := { p.cursor with cur := p.cursor.cur + n } } := by
  have hnone : ¬ firstOverrun rom p.cursor.cur < p.cursor.cur + n := by unfold firstOverrun; omega
  simp [BitPort.advance, hnone]

/-- Bits 7:4 of a byte are its high nibble. -/
theorem extractLsb'_high_nibble (hi lo : BitVec 4) :
    (BitVec.ofNat 8 (hi.toNat * 16 + lo.toNat)).extractLsb' 4 4 = hi := by
  apply BitVec.eq_of_toNat_eq
  rw [BitVec.extractLsb'_toNat, BitVec.toNat_ofNat, Nat.shiftRight_eq_div_pow]
  omega

/-- Bits 3:0 of a byte are its low nibble. -/
theorem extractLsb'_low_nibble (hi lo : BitVec 4) :
    (BitVec.ofNat 8 (hi.toNat * 16 + lo.toNat)).extractLsb' 0 4 = lo := by
  apply BitVec.eq_of_toNat_eq
  rw [BitVec.extractLsb'_toNat, BitVec.toNat_ofNat, Nat.shiftRight_zero]
  omega

/-- Two nibbles that stand in the stream are the header that is decoded there (R104). -/
theorem decodeHeader_of_stream {cfg : Config} {p : BitPort} {hp ha : BitVec 4}
    (hpen : streamAt cfg.rom p.cursor.cur (fieldBits 4 hp.toNat) = true)
    (harg : streamAt cfg.rom (p.cursor.cur + 4) (fieldBits 4 ha.toNat) = true) :
    decodeHeader cfg p = (.hdr hp ha, p.advance cfg.rom 8) := by
  have hbyte : (fetchField cfg.rom 8 p).1 = hp.toNat * 16 + ha.toNat := by
    rw [fetchField, fetchFrom_add cfg.rom 4 4, fetchFrom_of_stream _ 4 ha.toNat,
      fetchFrom_of_stream _ 4 hp.toNat _ _ hpen]
    · omega
    · rwa [fetchFrom_cur]
  rw [decodeHeader, hbyte, extractLsb'_high_nibble, extractLsb'_low_nibble, fetchField_port]

/-- The opcode that is fetched at a cursor (R105). -/
def opcodeAt (cfg : Config) (p : BitPort) : BitVec 3 := BitVec.ofNat 3 (fetchField cfg.rom 3 p).1

/-- A command is its opcode's operands, fetched three bits on (R105, R200). -/
theorem decodeCommand_eq (cfg : Config) (a n : Nat) (p : BitPort) :
    decodeCommand cfg a n p = decodeOperands cfg a n (opcodeAt cfg p) (p.advance cfg.rom 3) := by
  rw [decodeCommand, fetchField_port]; rfl

/-- An opcode that stands in the stream is the opcode that is fetched. -/
theorem opcodeAt_of_stream {cfg : Config} {p : BitPort} {op : BitVec 3}
    (h : streamAt cfg.rom p.cursor.cur (fieldBits 3 op.toNat) = true) : opcodeAt cfg p = op := by
  rw [opcodeAt, fetchField_of_stream op.isLt h, BitVec.ofNat_toNat, BitVec.setWidth_eq]

/-- The stream past the end of the ROM is all ones (R75). -/
theorem streamAt_past_end {rom : List Byte} {cur : Nat} (h : 8 * rom.length ≤ cur) (n : Nat) :
    streamAt rom cur (List.replicate n true) = true := by
  induction n generalizing cur with
  | zero => rfl
  | succ n ih =>
    rw [List.replicate_succ, streamAt, romBit_past_end (by omega), ih (by omega)]
    rfl

/-- Past the end of the ROM every opcode reads as 7 (R215). -/
theorem opcodeAt_past_end {cfg : Config} {p : BitPort} (h : 8 * cfg.rom.length ≤ p.cursor.cur) : opcodeAt cfg p = 7 :=
  opcodeAt_of_stream (op := 7) (streamAt_past_end h 3)

/-- An opcode of Stop that stands in the stream is the whole command (R212). -/
theorem decodeCommand_of_stop {cfg : Config} {p : BitPort} {op : BitVec 3} (a n : Nat)
    (hstop : cfg.operation op = .stop) (h : streamAt cfg.rom p.cursor.cur (fieldBits 3 op.toNat) = true) :
    decodeCommand cfg a n p = (.stop, p.advance cfg.rom 3) := by
  rw [decodeCommand_eq, opcodeAt_of_stream h, decodeOperands, hstop]

/-- Operands move the cursor forward, if at all. -/
theorem le_decodeOperands_cur (cfg : Config) (a n : Nat) (op : BitVec 3) (p : BitPort) :
    p.cursor.cur ≤ (decodeOperands cfg a n op p).2.cursor.cur := by
  unfold decodeOperands
  cases cfg.operation op with
  | nextLine | unknown | stop => exact le_refl _
  | skip | changeArgSize | changePenSize | drawRun | copyRun => simp [Nat.add_assoc]

/-- A command moves the cursor forward by at least 3 bits (R215). -/
theorem add_three_le_decodeCommand_cur (cfg : Config) (a n : Nat) (p : BitPort) :
    p.cursor.cur + 3 ≤ (decodeCommand cfg a n p).2.cursor.cur := by
  rw [decodeCommand_eq]
  exact le_decodeOperands_cur cfg a n _ (p.advance cfg.rom 3)

/-- The operations that end an invocation (R200). -/
def Operation.Ends (o : Operation) : Prop := o = .stop ∨ o = .unknown

end Sys2Proof

namespace Sys2Proof.Machine

/-! ## States that differ by drawing only -/

/-- `t` is `s` but for pixmaps, diagnostics and decoder, which is all that an invocation changes before it ends
(R200). -/
def State.OnlyDraws (s t : State) : Prop := t = { s with mem := t.mem, diag := t.diag, decoder := t.decoder }

section
variable {s t u : State}

theorem State.OnlyDraws.eq (h : s.OnlyDraws t) :
    t = { s with mem := t.mem, diag := t.diag, decoder := t.decoder } := h

theorem State.OnlyDraws.trans (h : s.OnlyDraws t) (k : t.OnlyDraws u) : s.OnlyDraws u := by
  unfold State.OnlyDraws at *
  rw [k, h]

theorem State.OnlyDraws.withDecoder (h : s.OnlyDraws t) (d : Decoder) : s.OnlyDraws (t.withDecoder d) :=
  h.trans rfl

theorem State.OnlyDraws.config (h : s.OnlyDraws t) : t.config = s.config := by rw [h.eq]
theorem State.OnlyDraws.pending (h : s.OnlyDraws t) : t.pending = s.pending := by rw [h.eq]
theorem State.OnlyDraws.inbox (h : s.OnlyDraws t) : t.inbox = s.inbox := by rw [h.eq]
theorem State.OnlyDraws.latchA (h : s.OnlyDraws t) : t.latchA = s.latchA := by rw [h.eq]
theorem State.OnlyDraws.latchB (h : s.OnlyDraws t) : t.latchB = s.latchB := by rw [h.eq]

variable (s)

theorem onlyDraws_raiseOverruns (bs : List Nat) : s.OnlyDraws (s.raiseOverruns bs) := rfl

theorem onlyDraws_raiseIf (c : Bool) (d : Diag) : s.OnlyDraws (s.raiseIf c d) := by cases c <;> rfl

theorem onlyDraws_plotRun (y : Int) (d : Dir) (cs : List Byte) (x : Int) : s.OnlyDraws (plotRun y d cs x s) := by
  rw [plotRun_eq_withMem]; rfl

theorem onlyDraws_runPens (pens : List Byte) (w : Working) : s.OnlyDraws (runPens pens s w) :=
  (onlyDraws_plotRun s _ _ _ _).withDecoder _

theorem onlyDraws_runHeader (hp ha : Nat) (c : BitCursor) : s.OnlyDraws (runHeader hp ha c s) :=
  ((onlyDraws_raiseIf s _ _).trans (onlyDraws_raiseIf _ _ _)).withDecoder _

end

/-! ## The header's effect -/

theorem checkPenSize_eq (s : State) (f : Nat) :
    s.checkPenSize (sizeOf f) = { s with diag := s.diag ++ Claims.penRange f } := by
  unfold State.checkPenSize State.raiseIf Claims.penRange sizeOf maxPenSize
  by_cases h : f + 1 > 4 <;> simp [h, State.raise]

theorem checkArgSize_eq (s : State) (f : Nat) :
    s.checkArgSize (sizeOf f) = { s with diag := s.diag ++ Claims.argRange f } := by
  unfold State.checkArgSize State.raiseIf Claims.argRange sizeOf maxArgSize
  by_cases h : f + 1 > 8 <;> simp [h, State.raise]

/-- The header records sizes above their range and puts the decoder in front of the first command (R201). -/
theorem runHeader_eq (hp ha : Nat) (c : BitCursor) (s : State) :
    runHeader hp ha c s = { s with
      diag := s.diag ++ Claims.penRange hp ++ Claims.argRange ha
      decoder := .running
        (initWorking s.regs c (clampTo (sizeOf hp) maxPenSize) (clampTo (sizeOf ha) maxArgSize)) } := by
  rw [runHeader, checkPenSize_eq, checkArgSize_eq]; rfl

/-! ## What a command of the bitstream does -/

section
variable {s : State} {w : Working}

/-- A command that ends the invocation records at most a diagnostic before it finishes (R211, R212). -/
theorem exec_operands_of_ends (hd : s.decoder = .running w) {cfg : Config} {op : BitVec 3}
    (hop : (cfg.operation op).Ends) (a n : Nat) (p : BitPort) :
    ∃ u, exec (decodeOperands cfg a n op p).1 s = .next (finishInvocation w.cursor.cur u) ∧ s.OnlyDraws u := by
  unfold decodeOperands
  obtain hstop | hunknown := hop
  · rw [hstop]
    exact ⟨s, onWorking_of_running hd _, rfl⟩
  · rw [hunknown]
    exact ⟨s.raise (.unknownOpcode op w.cursor.cur), onWorking_of_running hd _, rfl⟩

/-- Any other command draws at most and leaves the invocation running at the cursor that the fetch has reached (R205 to
R210). -/
theorem exec_operands_of_not_ends (hd : s.decoder = .running w) {cfg : Config} {op : BitVec 3}
    (hop : ¬ (cfg.operation op).Ends) (a n : Nat) (p : BitPort) :
    ∃ t v, exec (decodeOperands cfg a n op p).1 s = .next t ∧ s.OnlyDraws t ∧ t.decoder = .running v ∧
      v.cursor = w.cursor := by
  unfold decodeOperands
  cases ho : cfg.operation op with
  | nextLine | skip => exact ⟨_, _, onWorking_of_running hd _, rfl, rfl, rfl⟩
  | drawRun | copyRun => exact ⟨_, _, onWorking_of_running hd _, onlyDraws_runPens s _ w, rfl, rfl⟩
  | changeArgSize | changePenSize =>
    exact ⟨_, _, onWorking_of_running hd _, (onlyDraws_raiseIf s _ _).withDecoder _, rfl, rfl⟩
  | unknown => exact absurd (.inr ho) hop
  | stop => exact absurd (.inl ho) hop

/-! ## Steps inside an invocation -/

theorem raiseOverruns_nil (s : State) : s.raiseOverruns [] = s := by simp [State.raiseOverruns]

/-- A step in front of the header runs the header that stands at the cursor (R201). -/
theorem step_of_decodeHeader {c : BitCursor} {hp ha : BitVec 4} {p : BitPort} (hd : s.decoder = .header c)
    (h : decodeHeader s.config c.port = (.hdr hp ha, p)) :
    step s = .next (runHeader hp.toNat ha.toNat p.cursor (s.raiseOverruns p.raised)) := by
  rw [step_of_instr (fetch_of_header hd), h, ← runHeader_withDecoder _ _ _ _ (.header p.cursor)]
  rfl

/-- A step in front of a command runs the command that stands at the cursor (R200). -/
theorem step_of_decodeCommand {i : Instr} {p : BitPort} (hd : s.decoder = .running w)
    (h : decodeCommand s.config w.argSize w.penSize w.cursor.port = (i, p)) :
    step s = exec i ((s.raiseOverruns p.raised).withDecoder (.running { w with cursor := p.cursor })) := by
  rw [step_of_instr (fetch_of_running hd), h]

/-- A header inside the ROM sets the decoder behind it and raises no overrun. -/
theorem step_of_header_inside {c : BitCursor} {hp ha : BitVec 4} (hd : s.decoder = .header c)
    (hin : c.cur + 8 ≤ 8 * s.config.rom.length)
    (hpen : streamAt s.config.rom c.cur (fieldBits 4 hp.toNat) = true)
    (harg : streamAt s.config.rom (c.cur + 4) (fieldBits 4 ha.toNat) = true) :
    step s = .next (runHeader hp.toNat ha.toNat { c with cur := c.cur + 8 } s) := by
  have hdecode := decodeHeader_of_stream (cfg := s.config) (p := c.port) hpen harg
  rw [BitPort.advance_inside hin] at hdecode
  rw [step_of_decodeHeader hd hdecode, BitCursor.port_raised, raiseOverruns_nil]
  rfl

/-- A Stop inside the ROM finishes the invocation behind its opcode and raises no overrun. -/
theorem step_of_stop_inside {op : BitVec 3} (hd : s.decoder = .running w)
    (hin : w.cursor.cur + 3 ≤ 8 * s.config.rom.length) (hstop : s.config.operation op = .stop)
    (hop : streamAt s.config.rom w.cursor.cur (fieldBits 3 op.toNat) = true) :
    step s = .next (finishInvocation (w.cursor.cur + 3) s) := by
  have hdecode := decodeCommand_of_stop (p := w.cursor.port) w.argSize w.penSize hstop hop
  rw [BitPort.advance_inside hin] at hdecode
  rw [step_of_decodeCommand hd hdecode, BitCursor.port_raised, raiseOverruns_nil]
  rfl

/-- A step in front of the header answers a state in front of a command (R201). -/
theorem step_header_goes_on {c : BitCursor} (hd : s.decoder = .header c) :
    ∃ t w, step s = .next t ∧ s.OnlyDraws t ∧ t.decoder = .running w := by
  refine ⟨_, _, step_of_decodeHeader hd rfl, ?_, rfl⟩
  exact (onlyDraws_raiseOverruns s _).trans (onlyDraws_runHeader _ _ _ _)

/-- A step in front of an opcode of Stop or Unknown ends the invocation. -/
theorem step_running_ends (hd : s.decoder = .running w)
    (hop : (s.config.operation (opcodeAt s.config w.cursor.port)).Ends) :
    ∃ cur u, step s = .next (finishInvocation cur u) ∧ s.OnlyDraws u := by
  rw [step_of_decodeCommand hd (decodeCommand_eq _ _ _ _)]
  obtain ⟨u, hstep, hu⟩ := exec_operands_of_ends (State.withDecoder_decoder _ _) hop _ _ _
  exact ⟨_, u, hstep, ((onlyDraws_raiseOverruns s _).withDecoder _).trans hu⟩

/-- A step in front of any other opcode leaves the invocation running, at least 3 bits further on (R215). -/
theorem step_running_goes_on (hd : s.decoder = .running w)
    (hop : ¬ (s.config.operation (opcodeAt s.config w.cursor.port)).Ends) :
    ∃ t v, step s = .next t ∧ s.OnlyDraws t ∧ t.decoder = .running v ∧ w.cursor.cur + 3 ≤ v.cursor.cur := by
  have hcur := add_three_le_decodeCommand_cur s.config w.argSize w.penSize w.cursor.port
  rw [decodeCommand_eq] at hcur
  rw [step_of_decodeCommand hd (decodeCommand_eq _ _ _ _)]
  obtain ⟨t, v, hstep, ht, hrun, hv⟩ := exec_operands_of_not_ends (State.withDecoder_decoder _ _) hop _ _ _
  exact ⟨t, v, hstep, ((onlyDraws_raiseOverruns s _).withDecoder _).trans ht, hrun, hv ▸ hcur⟩

/-! ## Runs to the end of an invocation -/

/-- A run of one step is the step. -/
theorem run_one_of_step {t : State} (h : step s = .next t) : Host.Core.run Sys2Proof.core 1 s = .next t :=
  run_succ_of_step h 0

/-- An invocation whose next command is at most `3 * b` bits from the end of the ROM takes at most `b` commands to get
there and one more to end, if opcode 7 ends it (R215). -/
theorem run_running_ends (b : Nat) (hd : s.decoder = .running w) (h7 : (s.config.operation 7).Ends)
    (hend : Claims.romEnd s.config ≤ w.cursor.cur + 3 * b) :
    ∃ k cur u, k ≤ b + 1 ∧ Host.Core.run Sys2Proof.core k s = .next (finishInvocation cur u) ∧ s.OnlyDraws u := by
  induction b generalizing s w with
  | zero =>
    have hseven : opcodeAt s.config w.cursor.port = 7 := opcodeAt_past_end hend
    rw [← hseven] at h7
    obtain ⟨cur, u, hstep, hu⟩ := step_running_ends hd h7
    exact ⟨1, cur, u, le_refl _, run_one_of_step hstep, hu⟩
  | succ b ih =>
    by_cases hop : (s.config.operation (opcodeAt s.config w.cursor.port)).Ends
    · obtain ⟨cur, u, hstep, hu⟩ := step_running_ends hd hop
      exact ⟨1, cur, u, by omega, run_one_of_step hstep, hu⟩
    · obtain ⟨t, v, hstep, ht, hrun, hcur⟩ := step_running_goes_on hd hop
      rw [← ht.config] at h7 hend
      obtain ⟨k, cur, u, hk, hrest, hu⟩ := ih hrun h7 (by omega)
      exact ⟨k + 1, cur, u, by omega, (run_succ_of_step hstep k).trans hrest, ht.trans hu⟩

/-- An invocation whose opcode 7 ends it does so in R354's bound: the header, the commands inside the ROM, and one past
its end. -/
theorem run_invocation_ends (hd : s.decoder ≠ .idle) (h7 : (s.config.operation 7).Ends) :
    ∃ k cur u, k ≤ (Claims.romEnd s.config + 2) / 3 + 2 ∧
      Host.Core.run Sys2Proof.core k s = .next (finishInvocation cur u) ∧ s.OnlyDraws u := by
  cases hc : s.decoder with
  | idle => exact absurd hc hd
  | running w =>
    obtain ⟨k, cur, u, hk, hrun, hu⟩ := run_running_ends ((Claims.romEnd s.config + 2) / 3) hc h7 (by omega)
    exact ⟨k, cur, u, by omega, hrun, hu⟩
  | header c =>
    obtain ⟨t, w, hstep, ht, hw⟩ := step_header_goes_on hc
    rw [← ht.config] at h7 ⊢
    obtain ⟨k, cur, u, hk, hrun, hu⟩ := run_running_ends ((Claims.romEnd t.config + 2) / 3) hw h7 (by omega)
    exact ⟨k + 1, cur, u, by omega, (run_succ_of_step hstep k).trans hrun, ht.trans hu⟩

end

/-! ## The statements -/

/-- Settles O43: the cursor's distance from the end of the ROM falls by 3 bits or more with each command, and past the
end opcode 7 ends the invocation; until then only drawing happens, and the end hands out the one token. -/
theorem invocationsEndWhenOpcodeSevenEnds : Obligations.InvocationsEndWhenOpcodeSevenEnds := by
  intro s hd h7
  obtain ⟨k, cur, u, hk, hrun, hu⟩ := run_invocation_ends hd h7
  have hpending : u.pending + 1 = s.pending + 1 := by rw [hu.pending]
  exact ⟨k, finishInvocation cur u, hk, hrun, rfl, hpending, hu.inbox, hu.latchA, hu.latchB, hu.config⟩

/-- Settles O46: both items are inside the ROM, so their fetches record nothing; the header sets the decoder and records
its sizes, and the Stop finishes 11 bits after the start. -/
theorem headerThenStopOnlyMovesTheAddress : Obligations.HeaderThenStopOnlyMovesTheAddress := by
  intro s c hp ha op hd hin hstop hstream
  simp only [streamAt_append, List.length_append, fieldBits_length, Bool.and_eq_true] at hstream
  obtain ⟨⟨hpen, harg⟩, hop⟩ := hstream
  have hheader := step_of_header_inside hd (by unfold Claims.romEnd at hin; omega) hpen harg
  rw [runHeader_eq] at hheader
  rw [← Config.unitBits_eq_unit]
  refine (run_succ_of_step hheader 1).trans (run_one_of_step ?_)
  exact step_of_stop_inside (w := initWorking s.regs { c with cur := c.cur + 8 } _ _) rfl hin hstop hop

end Sys2Proof.Machine

/-! Proofs of the statements on 42_rasterizer.md: where `Plot` stores (R240 to R242, R244), what the clip test keeps
(R243, R245), and what FILL_ALL fills (R250). -/

namespace Sys2Proof

/-! ## Words for START -/

theorem wordData_startWord (k : BitVec 6) (c : BitVec 2) (code : Byte) : wordData (startWord k c code) = code :=
  BitVec.extractLsb'_append_eq_right

theorem wordCarry_startWord (k : BitVec 6) (c : BitVec 2) (code : Byte) : wordCarry (startWord k c code) = c := by
  unfold wordCarry startWord
  rw [BitVec.extractLsb'_append_eq_of_le (by decide)]
  exact BitVec.extractLsb'_append_eq_left

/-- A word on START's index decodes to the row of what STARTMAP gives its code (R108). -/
theorem decodeWord_startWord {cfg : Config} {q : PortPair} {k : BitVec 6} (hs : cfg.reg q k = some .start)
    (c : BitVec 2) (code : Byte) :
    decodeWord cfg q (startWord k c code) = Claims.startRow (cfg.startOp code) c code := by
  rw [decodeWord_of_reg ((congrArg (cfg.reg q) (wordIndex_startWord k c code)).trans hs), wordCarry_startWord,
    wordData_startWord]
  exact instrOfStart_eq_startRow cfg c code

end Sys2Proof

namespace Sys2Proof.Machine

/-! ## The clip test (R243) -/

theorem inRange_iff {lo hi z : Nat} : inRange lo hi z = true ↔ lo ≤ z ∧ z ≤ hi := by simp [inRange]

theorem clipUpper_eq (form : ClipForm) (origin extent : Nat) :
    clipUpper form origin extent = if form = .originPlusExtent then origin + extent else extent := by
  cases form <;> rfl

theorem insideX_iff {form : ClipForm} {k : Clip} {x : Nat} : insideX form k x = true ↔
    k.x ≤ x ∧ x ≤ (if form = .originPlusExtent then k.x + k.width else k.width) := by
  rw [insideX, inRange_iff, clipUpper_eq]

theorem insideY_iff {form : ClipForm} {k : Clip} {y : Nat} : insideY form k y = true ↔
    k.y ≤ y ∧ y ≤ (if form = .originPlusExtent then k.y + k.height else k.height) := by
  rw [insideY, inRange_iff, clipUpper_eq]

theorem rejected_iff {form : ClipForm} {k : Clip} {x y : Nat} : rejected form k x y = true ↔
    (k.ctrl.getLsbD 0 = false ∧ insideX form k x = true) ∨ (k.ctrl.getLsbD 1 = false ∧ ¬ insideX form k x = true) ∨
    (k.ctrl.getLsbD 2 = false ∧ insideY form k y = true) ∨ (k.ctrl.getLsbD 3 = false ∧ ¬ insideY form k y = true) := by
  simp [rejected, or_assoc]

/-- A bit of a field is the bit of the byte. -/
theorem getLsbD_of_field {b : Byte} {start len : Nat} {m : BitVec len} (h : b.extractLsb' start len = m) {i : Nat}
    (hi : i < len) : b.getLsbD (start + i) = m.getLsbD i := by
  rw [← h, BitVec.getLsbD_extractLsb', decide_eq_true hi, Bool.true_and]

/-- With all four enable bits set no pixel is rejected (R245). -/
theorem rejected_of_all_enabled {k : Clip} (h : k.ctrl.extractLsb' 0 4 = 15) (form : ClipForm) (x y : Nat) :
    rejected form k x y = false := by
  have h0 : k.ctrl.getLsbD 0 = true := getLsbD_of_field h (i := 0) (by decide)
  have h1 : k.ctrl.getLsbD 1 = true := getLsbD_of_field h (i := 1) (by decide)
  have h2 : k.ctrl.getLsbD 2 = true := getLsbD_of_field h (i := 2) (by decide)
  have h3 : k.ctrl.getLsbD 3 = true := getLsbD_of_field h (i := 3) (by decide)
  simp [rejected, h0, h1, h2, h3]

/-- With both enable bits of x clear every pixel is rejected, being inside or outside x. -/
theorem rejected_of_x_disabled {k : Clip} (h0 : k.ctrl.getLsbD 0 = false) (h1 : k.ctrl.getLsbD 1 = false)
    (form : ClipForm) (x y : Nat) : rejected form k x y = true := by
  by_cases hx : insideX form k x = true
  · exact rejected_iff.2 (.inl ⟨h0, hx⟩)
  · exact rejected_iff.2 (.inr (.inl ⟨h1, hx⟩))

/-- With both enable bits of y clear every pixel is rejected, being inside or outside y. -/
theorem rejected_of_y_disabled {k : Clip} (h2 : k.ctrl.getLsbD 2 = false) (h3 : k.ctrl.getLsbD 3 = false)
    (form : ClipForm) (x y : Nat) : rejected form k x y = true := by
  by_cases hy : insideY form k y = true
  · exact rejected_iff.2 (.inr (.inr (.inl ⟨h2, hy⟩)))
  · exact rejected_iff.2 (.inr (.inr (.inr ⟨h3, hy⟩)))

/-! ## Where a plot stores -/

/-- A natural number that is congruent to a coordinate and reduced is the wrapped coordinate (R242). -/
theorem wrap512_eq {n : Nat} {z : Int} (h : (n : Int) = z % 512) : wrap512 z = n := by
  rw [wrap512, ← h, Int.toNat_natCast]

theorem swapIf_fst (b : Bool) (x y : Int) : (swapIf b x y).1 = if b = true then y else x := by cases b <;> rfl

theorem swapIf_snd (b : Bool) (x y : Int) : (swapIf b x y).2 = if b = true then x else y := by cases b <;> rfl

/-- A rejected plot leaves the state (R243). -/
theorem plot_of_rejected {s : State} {x y : Int}
    (h : rejected s.config.clipForm s.regs.clip (wrap512 (swapIf s.regs.flip.swapXY x y).1)
      (wrap512 (swapIf s.regs.flip.swapXY x y).2) = true) (c : Byte) : plot x y c s = s := if_pos h

/-- The addresses a plot hits, from its wrapped coordinates (R241, R242, R244). -/
theorem hits_iff {s : State} {x y : Int} {X Y : Nat}
    (hX : (X : Int) = (if s.regs.flip.swapXY = true then y else x) % 512)
    (hY : (Y : Int) = (if s.regs.flip.swapXY = true then x else y) % 512) (a : Nat) :
    Hits s x y a ↔ rejected s.config.clipForm s.regs.clip X Y = false ∧
      ∃ l : Layer, s.regs.destLayerMask.getLsbD l.val = true ∧ a = 262144 * l.val + 512 * Y + X := by
  simp only [Hits, swapIf_fst, swapIf_snd, wrap512_eq hX, wrap512_eq hY, layerSelected, pixelAddress, layerAddress,
    layerSize, linear, Nat.add_assoc]

/-! ## Fills and starts -/

/-- A fill sets the linear addresses from its wrapped origin to the buffer end, in every selected layer (R254). -/
theorem read_fillFromOrigin (x y : Int) (s : State) (b : Nat) :
    (fillFromOrigin x y s).mem.read b =
      if ∃ l, layerSelected s.regs.destLayerMask l = true ∧
          layerAddress l (linear (wrap512 x) (wrap512 y)) ≤ b ∧ b < layerAddress l layerSize then s.regs.pen
      else s.mem.read b := by
  have hlt := linear_lt (wrap512_lt x) (wrap512_lt y)
  have hend : ∀ l : Layer, layerAddress l (linear (wrap512 x) (wrap512 y)) +
      (layerSize - linear (wrap512 x) (wrap512 y)) = layerAddress l layerSize := by
    intro l
    unfold layerAddress
    omega
  simp only [fillFromOrigin, State.withMem_mem, read_fillSelected, hend]

/-- A start that changes the memory only and schedules its token changes nothing else (R160). -/
theorem onlyStores_schedule {s t : State} (h : t = s.withMem t.mem) (f : DelayFamily) :
    Claims.OnlyStores s (t.schedule f) := by rw [h]; rfl

/-- A start that changes the memory only hands out the one token it schedules (R160). -/
theorem started_schedule {s t : State} (h : t = s.withMem t.mem) (f : DelayFamily) :
    Claims.Started s (t.schedule f) := by rw [h]; exact ⟨rfl, f, rfl⟩

/-! ## The statements -/

/-- Settles O22: the wrapped coordinates decide which addresses the plot hits, and a plot changes these only. -/
theorem plotStoresAtTheWrappedPixel : Obligations.PlotStoresAtTheWrappedPixel := by
  classical
  intro s x y c X Y hX hY
  refine ⟨plot_eq_withMem x y c s, fun hrej => ?rejected, fun hkept => ⟨fun l hl => ?stored, fun a ha => ?other⟩⟩
  case rejected =>
    rw [plot_of_rejected]
    rwa [swapIf_fst, swapIf_snd, wrap512_eq hX, wrap512_eq hY]
  case stored => rw [read_plot, if_pos ((hits_iff hX hY _).2 ⟨hkept, l, hl, rfl⟩)]
  case other =>
    rw [read_plot, if_neg]
    rw [hits_iff hX hY]
    rintro ⟨-, l, hl, hat⟩
    exact ha l hl hat

/-- Settles O24: FILL_ALL's origin is address 0 of each layer, so a selected layer's addresses are all filled. -/
theorem fillAllFillsTheSelectedLayers : Obligations.FillAllFillsTheSelectedLayers := by
  intro s c
  refine ⟨startFillAll s, rfl, onlyStores_schedule rfl .direct, started_schedule rfl .direct,
    fun l a hl ha => ?filled, fun a hout => ?other, ?decoded⟩
  case filled =>
    refine (read_fillFromOrigin 0 0 s _).trans (if_pos ⟨l, hl, Nat.le_add_right _ _, ?_⟩)
    exact Nat.add_lt_add_left ha _
  case other =>
    refine (read_fillFromOrigin 0 0 s a).trans (if_neg ?_)
    rintro ⟨l, hl, hfrom, hto⟩
    exact hout l hl ⟨hfrom, hto⟩
  case decoded =>
    refine (decodeWord_startWord (k := 0x12) (by decide) c 0x01).trans ?_
    rw [show Config.default.startOp 0x01 = some .fillAll by decide]
    rfl

/-- Settles O23: each axis is tested by its two enable bits, of which one applies wherever the pixel is. -/
theorem clipTestFollowsItsFormula : Obligations.ClipTestFollowsItsFormula := by
  intro form k x y
  refine ⟨?formula, fun h => rejected_of_all_enabled h form x y, fun h => ?xDisabled, fun h => ?yDisabled,
    fun s i j c h => ?noneEnabled⟩
  case formula => rw [rejected_iff, insideX_iff, insideY_iff]
  case xDisabled =>
    exact rejected_of_x_disabled (getLsbD_of_field h (i := 0) (by decide)) (getLsbD_of_field h (i := 1) (by decide)) ..
  case yDisabled =>
    exact rejected_of_y_disabled (getLsbD_of_field h (i := 0) (by decide)) (getLsbD_of_field h (i := 1) (by decide)) ..
  case noneEnabled =>
    apply plot_of_rejected
    exact rejected_of_x_disabled (getLsbD_of_field h (i := 0) (by decide)) (getLsbD_of_field h (i := 1) (by decide)) ..

end Sys2Proof.Machine

/-! Proofs of the statements on 43_compositor.md: a frame pixel is painted by the last opaque enabled layer in paint order
(R280 to R285). -/

namespace Sys2Proof.Machine

/-! ## The paint order (R280, R282, R283) -/

/-- The row of PERM that a priority index names, as the compositor looks it up (R282). -/
theorem perm_getD_eq_get (perm : Vector PaintOrder 24) (p : BitVec 5) (d : PaintOrder) :
    perm.toList.getD (if p.toNat < 24 then p.toNat else 0) d = perm.get (effectivePriority p) := by
  have hat : ∀ k : Fin 24, perm.toList.getD k.val d = perm.get k := fun k => by
    simp [Vector.get]
  rw [← hat]
  congr 1
  unfold effectivePriority
  split_ifs <;> rfl

/-- The paint order is the first group's layers, and with EIGHT_LAYER the second group's over them, each with its
group's enable mask (R280). -/
theorem paintOrder_eq_groups (s : State) :
    Claims.paintOrder s = (firstGroup s).map (·, s.regs.layerEnableMask) ++
      (if s.config.eightLayer then (secondGroup s).map (·, s.regs.layerEnableMask2) else []) := by
  have hA : ∀ k : Fin 4, (⟨(0 + k.val) % 8, Nat.mod_lt _ (by decide)⟩ : Layer) = layerA k := by decide
  have hB : ∀ k : Fin 4, (⟨(4 + k.val) % 8, Nat.mod_lt _ (by decide)⟩ : Layer) = layerB k := by decide
  simp only [Claims.paintOrder, perm_getD_eq_get, hA, hB, firstGroup, secondGroup, PaintOrder.toList, List.map_map]
  rfl

/-! ## One layer at one frame pixel (R284) -/

section
variable (s : State) (x y : Nat)

/-- What a layer and its group's enable mask paint over `below` at a frame pixel. -/
def paintOver (below : FramePixel) (q : Layer × Byte) : FramePixel := drawLayerAt s x y q.2 below q.1

/-- The background and then each layer in paint order make the frame pixel (R280, R281). -/
theorem framePixel_eq_foldl :
    framePixel s x y = (Claims.paintOrder s).foldl (paintOver s x y) (s.regs.bgColor.setWidth 16) := by
  rw [paintOrder_eq_groups, List.foldl_append, List.foldl_map, framePixel]
  cases s.config.eightLayer with
  | false => rfl
  | true => exact List.foldl_map.symm

/-- The scrolled source pixel stands at its row-major address in the layer (R70, R88). -/
theorem sourcePixel_eq_source (l : Layer) : sourcePixel s l x y = Claims.source s l x y := by
  unfold sourcePixel Claims.source State.pixel pixelAddress layerAddress linear layerSize
  congr 1
  omega

variable {s x y} {q : Layer × Byte}

/-- The compositor's test of a layer is that it is opaque and enabled. -/
theorem draws_iff_opaque :
    (layerEnabled q.2 q.1 && !transparent s.regs q.1 (sourcePixel s q.1 x y)) = true ↔ Claims.Opaque s x y q := by
  simp [layerEnabled, transparent, Claims.Opaque, sourcePixel_eq_source]

/-- An opaque enabled layer replaces what is below it: there is no blending. -/
theorem paintOver_of_opaque (h : Claims.Opaque s x y q) (below : FramePixel) :
    paintOver s x y below q = mapped s.regs q.1 (Claims.source s q.1 x y) := by
  rw [paintOver, drawLayerAt, if_pos (draws_iff_opaque.2 h), sourcePixel_eq_source]

/-- A layer that is disabled or transparent at the pixel contributes nothing. -/
theorem paintOver_of_not_opaque (h : ¬ Claims.Opaque s x y q) (below : FramePixel) :
    paintOver s x y below q = below := by
  rw [paintOver, drawLayerAt, if_neg (mt draws_iff_opaque.1 h)]

/-- Layers of which none is opaque contribute nothing together. -/
theorem foldl_paintOver_of_none_opaque {qs : List (Layer × Byte)} (h : ∀ q ∈ qs, ¬ Claims.Opaque s x y q)
    (below : FramePixel) : qs.foldl (paintOver s x y) below = below := by
  induction qs with
  | nil => rfl
  | cons q qs ih =>
    obtain ⟨hq, hqs⟩ := List.forall_mem_cons.1 h
    rw [List.foldl_cons, paintOver_of_not_opaque hq, ih hqs]

end

/-- The palette mapping bit by bit: above bit 7 the mask is 0, so the base's bits pass (R284, D40). -/
theorem getLsbD_mapped (r : RegisterFile) (l : Layer) (p : Byte) {i : Nat} (hi : i < 16) :
    (mapped r l p).getLsbD i =
      if (r.paletteMask.get l).getLsbD i = true then p.getLsbD i else (r.paletteBase.get l).getLsbD i := by
  cases hm : (r.paletteMask.get l).getLsbD i <;> simp [mapped, hi, hm]

/-! ## The statement -/

/-- Settles O47: the last opaque layer overwrites what is below it, and the layers above it leave its pixel. -/
theorem framePixelIsTheTopmostOpaqueLayer : Obligations.FramePixelIsTheTopmostOpaqueLayer := by
  intro s x y
  refine ⟨fun pre post l en horder hl hpost i hi => ?layer, fun hnone => ?background⟩
  case layer =>
    have hpixel : framePixel s x y = mapped s.regs l (Claims.source s l x y) := by
      rw [framePixel_eq_foldl, horder, List.foldl_append, List.foldl_cons, paintOver_of_opaque hl,
        foldl_paintOver_of_none_opaque hpost]
    rw [hpixel, getLsbD_mapped _ _ _ hi]
  case background => exact (framePixel_eq_foldl s x y).trans (foldl_paintOver_of_none_opaque hnone _)

end Sys2Proof.Machine

/-! Proofs of the statements on 60_exceptions.md: what redeeming a blit-complete token answers (R311). -/

namespace Sys2Proof.Machine

/-! ## Redeeming a token (R311) -/

section
variable {s : State}

/-- With a token pending, `complete()` takes one away and pulses. -/
theorem completeToken_of_pending (h : 0 < s.pending) :
    completeToken s = .next ({ s with pending := s.pending - 1 }.emit .blitComplete) := if_pos h

/-- With no token pending, `complete()` is not enabled (log 14). -/
theorem completeToken_of_none_pending (h : s.pending = 0) : completeToken s = .refused .completeNotEnabled :=
  if_neg h.not_gt

/-- The host's `complete` entry is served by `completeToken` once it is taken from the inbox (R65). -/
theorem step_of_complete {es : List HostEntry} (hd : s.decoder = .idle) (hi : s.inbox = .complete :: es) :
    step s = completeToken (s.withInbox es) := step_of_done (fetch_of_entry hd hi)

end

/-! ## The statement -/

/-- Settles O50: the step is `completeToken`, which turns on PENDING alone, and taking the entry leaves PENDING. -/
theorem completeRedeemsOneToken : Obligations.CompleteRedeemsOneToken := by
  intro s es hd hi
  rw [step_of_complete hd hi]
  refine ⟨fun hpending => ?redeemed, fun hnone => ?refused⟩
  case redeemed => exact completeToken_of_pending (s := s.withInbox es) hpending
  case refused => exact completeToken_of_none_pending (s := s.withInbox es) hnone

end Sys2Proof.Machine

/-! Proofs of the statements on 70_reset_and_hazards.md: an invocation past the end of the ROM whose opcode 7 goes on
never ends (R354), and a device right after reset shows the background 0 (R342). -/

namespace Sys2Proof.Machine

/-! ## Runs that never end (R354) -/

section
variable {s t : State} {w : Working}

theorem State.OnlyDraws.outputs (h : s.OnlyDraws t) : t.outputs = s.outputs := by rw [h.eq]

/-- Past the end of the ROM, where every opcode reads as 7, a run of any length only draws and goes on, if opcode 7
does not end the invocation (R354). -/
theorem run_past_end_goes_on (k : Nat) (hd : s.decoder = .running w) (hend : Claims.romEnd s.config ≤ w.cursor.cur)
    (h7 : ¬ (s.config.operation 7).Ends) :
    ∃ t v, Host.Core.run Sys2Proof.core k s = .next t ∧ s.OnlyDraws t ∧ t.decoder = .running v := by
  induction k generalizing s w with
  | zero => exact ⟨s, w, rfl, rfl, hd⟩
  | succ k ih =>
    have hseven : opcodeAt s.config w.cursor.port = 7 := opcodeAt_past_end hend
    obtain ⟨u, v, hstep, hu, hrun, hcur⟩ := step_running_goes_on hd (hseven ▸ h7)
    rw [← hu.config] at h7 hend
    obtain ⟨t, v', hrest, ht, hrun'⟩ := ih hrun (by omega) h7
    exact ⟨t, v', (run_succ_of_step hstep k).trans hrest, hu.trans ht, hrun'⟩

end

/-! ## The frame of a fresh device (R340 to R342) -/

/-- The pixmaps are 0 everywhere after reset (R340). -/
theorem source_fresh (cfg : Config) (l : Layer) (x y : Nat) : Claims.source (State.fresh cfg) l x y = 0 :=
  Memory.read_nil _

/-- After reset a source pixel of 0 is transparent: transparency mask and pen of every layer are 0 (R341). -/
theorem transparent_fresh_zero (cfg : Config) (l : Layer) : transparent (State.fresh cfg).regs l 0 = true := by
  change transparent RegisterFile.reset l 0 = true
  decide +revert

/-- No layer contributes anywhere to the frame of a fresh device (R342). -/
theorem not_opaque_fresh (cfg : Config) (x y : Nat) (q : Layer × Byte) : ¬ Claims.Opaque (State.fresh cfg) x y q := by
  rw [← draws_iff_opaque, sourcePixel_eq_source, source_fresh, transparent_fresh_zero]
  simp

/-! ## The statements -/

/-- Settles O44: every command read past the end of the ROM is opcode 7, which goes on and leaves the cursor past the
end. -/
theorem overrunDivergesWhenOpcodeSevenGoesOn : Obligations.OverrunDivergesWhenOpcodeSevenGoesOn := by
  intro s w hd hend hstop hunknown k
  obtain ⟨t, v, hrun, ht, hv⟩ := run_past_end_goes_on k hd hend (not_or.2 ⟨hstop, hunknown⟩)
  exact ⟨t, v, hrun, hv, ht.pending, ht.inbox, ht.outputs⟩

/-- Settles O49: no layer is opaque, so the background shows, which is 0 after reset. -/
theorem freshDeviceShowsZero : Obligations.FreshDeviceShowsZero := by
  intro cfg x y
  rw [framePixel_eq_foldl, foldl_paintOver_of_none_opaque fun q _ => not_opaque_fresh cfg x y q]
  rfl

end Sys2Proof.Machine

/-! Proofs of the statements on 30_encoding.md: decoding an encoding gives the instruction back, on the ports of the host
(R101 to R113) and in the bitstream (R104, R105), every command of the bitstream has an encoding, and a step runs the item
whose encoding stands at the cursor. -/

namespace Sys2Proof

/-! ## Host encodings -/

/-- The instruction has an encoding, and what the encoding is on the host's side decodes to the instruction. -/
def Instr.DecodesBack (cfg : Config) (a p : Nat) (i : Instr) : Prop :=
  (∃ e, encode cfg a p i = some e) ∧
  (∀ q w, encode cfg a p i = some (.word q w) → decodeWord cfg q w = i) ∧
  (∀ q b, encode cfg a p i = some (.selectByte q b) → i = .sel q b) ∧
  (∀ q d, encode cfg a p i = some (.applyByte q d) → i = .app q d)

section
variable {cfg : Config} {a p : Nat} {i : Instr}

/-- An instruction that is encoded as a word is given back if that word decodes to it. -/
theorem Instr.DecodesBack.of_word {q : PortPair} {w : BitVec 16} (he : encode cfg a p i = some (.word q w))
    (hd : decodeWord cfg q w = i) : i.DecodesBack cfg a p := by
  refine ⟨⟨_, he⟩, fun q' w' h => ?_, fun _ _ h => ?_, fun _ _ h => ?_⟩
  · cases he.symm.trans h
    exact hd
  · cases he.symm.trans h
  · cases he.symm.trans h

/-- An instruction of the bitstream has no encoding on the host's side. -/
theorem Instr.DecodesBack.of_stream {bits : List Bool} (he : encode cfg a p i = some (.stream bits)) :
    i.DecodesBack cfg a p := by
  refine ⟨⟨_, he⟩, fun _ _ h => ?_, fun _ _ h => ?_, fun _ _ h => ?_⟩ <;> cases he.symm.trans h

/-- The row of a register is given back: the place that the encoder takes is one where a layout reaches the register. -/
theorem Instr.DecodesBack.of_reg {q : PortPair} {r : Reg} {v : BitVec 10} (hr : cfg.hasReg r = true)
    (he : encode cfg a p i = encodeReg cfg q r v) (hi : Claims.writeRow r v = some i) : i.DecodesBack cfg a p := by
  obtain ⟨place, hplace⟩ := Option.isSome_iff_exists.1 (Config.place_isSome.2 hr)
  refine .of_word (he.trans ?_) (decodeWord_pair (Config.place_sound hplace) hi)
  rw [encodeReg, hplace]
  rfl

/-- The row of START with a code is given back: START has a place, and STARTMAP gives the code what the row says. -/
theorem Instr.DecodesBack.of_startCode {c : BitVec 2} {code : Byte} (hs : cfg.hasReg .start = true)
    (he : encode cfg a p i = encodeStart cfg c (some code)) (hi : Claims.startRow (cfg.startOp code) c code = i) :
    i.DecodesBack cfg a p := by
  obtain ⟨place, hplace⟩ := Option.isSome_iff_exists.1 (Config.place_isSome (p := .a).2 hs)
  refine .of_word (he.trans ?_) ((decodeWord_startWord (Config.place_sound hplace) c code).trans hi)
  simp only [encodeStart, hplace]

/-- The row of a start operation is given back: the code that the encoder takes is one of the operation's. -/
theorem Instr.DecodesBack.of_start {c : BitVec 2} {o : StartOp} (h : cfg.hasStart o = true)
    (he : encode cfg a p i = encodeStart cfg c (cfg.startCode o)) (hi : ∀ code, Claims.startRow (some o) c code = i) :
    i.DecodesBack cfg a p := by
  obtain ⟨hs, ho⟩ := Bool.and_eq_true_iff.1 h
  obtain ⟨code, hcode⟩ := Option.isSome_iff_exists.1 ho
  have hop : cfg.startOp code = some o := lowestKey_sound hcode
  exact .of_startCode hs (hcode ▸ he) (hop ▸ hi code)

/-- The undefined-index row is given back: its index is undefined on its pair. -/
theorem Instr.DecodesBack.of_undefinedIndex {q : PortPair} {k : BitVec 6} {v : BitVec 10}
    (h : cfg.undefinedIndex q k = true) : (Instr.wrUndefinedIndex q k v).DecodesBack cfg a p := by
  have hnone : cfg.reg q (wordIndex (Claims.pair k v)) = none := by
    rw [wordIndex_pair]
    exact Option.isNone_iff_eq_none.1 h
  refine .of_word (if_pos h) ((decodeWord_of_undefined hnone).trans ?_)
  rw [wordIndex_pair, combinedValue_pair]

/-- An operation with an opcode is encoded with one that the command table gives it (R112). -/
theorem encodeOp_of_hasOp {o : Operation} (h : cfg.hasOp o = true) (operands : List Bool) :
    ∃ op, cfg.operation op = o ∧ encodeOp cfg o operands = some (.stream (fieldBits 3 op.toNat ++ operands)) := by
  obtain ⟨op, hop⟩ := Option.isSome_iff_exists.1 h
  refine ⟨op, Option.some_inj.1 (lowestKey_sound hop), ?_⟩
  rw [encodeOp, hop]
  rfl

/-- A command whose operation has an opcode is encoded as bits of the stream. -/
theorem Instr.DecodesBack.of_op {o : Operation} {operands : List Bool} (h : cfg.hasOp o = true)
    (he : encode cfg a p i = encodeOp cfg o operands) : i.DecodesBack cfg a p := by
  obtain ⟨op, -, hop⟩ := encodeOp_of_hasOp h operands
  exact .of_stream (he.trans hop)

end

/-- Settles O1: each row is encoded through a place, a code or an opcode that the tables give it, and the decoder looks the
same tables up. -/
theorem hostInstructionsDecodeAfterEncode : Obligations.HostInstructionsDecodeAfterEncode := by
  intro cfg a p i h
  change i.DecodesBack cfg a p
  cases i with
  | sel q b =>
    refine ⟨⟨_, rfl⟩, fun _ _ h => ?_, fun _ _ h => ?_, fun _ _ h => ?_⟩ <;> cases h
    rfl
  | app q d =>
    refine ⟨⟨_, rfl⟩, fun _ _ h => ?_, fun _ _ h => ?_, fun _ _ h => ?_⟩ <;> cases h
    rfl
  | wrUndefinedIndex q k v => exact .of_undefinedIndex h
  | goFillAll c | goFillFromXY c | goFillRect c | goFillBand c | goHline c | goVline c | goRomDraw c =>
    exact .of_start h rfl (fun _ => rfl)
  | goUnknown c code =>
    obtain ⟨hs, hcode⟩ := Bool.and_eq_true_iff.1 h
    exact .of_startCode hs (if_pos hcode) (by rw [Option.isNone_iff_eq_none.1 hcode]; rfl)
  | hdr hp ha => exact .of_stream rfl
  | next | argsz f | pensz f | stop => exact .of_op h rfl
  | unk op => exact .of_stream (if_pos (of_decide_eq_true h))
  | draw n c | copy c cs | skip n =>
    simp only [Instr.wellFormed, Bool.and_eq_true, and_assoc] at h
    obtain ⟨hop, -⟩ := h
    exact .of_op hop rfl
  | _ => exact .of_reg h rfl rfl

/-! ## Fields and pens in the stream -/

/-- A field that stands in the stream is fetched, and the port is advanced by its width (R74, R203). -/
theorem fetchField_eq_of_stream {rom : List Byte} {n v : Nat} {q : BitPort} (hv : v < 2 ^ n)
    (h : streamAt rom q.cursor.cur (fieldBits n v) = true) : fetchField rom n q = (v, q.advance rom n) :=
  Prod.ext (fetchField_of_stream hv h) (fetchField_port rom n q)

theorem fetchFields_port (rom : List Byte) (n count : Nat) (q : BitPort) :
    (fetchFields rom n count q).2 = q.advance rom (count * n) := by
  induction count generalizing q with
  | zero => rw [Nat.zero_mul, BitPort.advance_zero]; rfl
  | succ k ih => rw [fetchFields, ih, fetchField_port, BitPort.advance_advance, Nat.succ_mul, Nat.add_comm]

/-- Pens that stand in the stream one after the other are the pens that are fetched (R207). -/
theorem fetchFields_of_stream {rom : List Byte} {n : Nat} {pens : List Byte} {q : BitPort}
    (hfit : ∀ c ∈ pens, c.toNat < 2 ^ n)
    (h : streamAt rom q.cursor.cur (pens.flatMap (fun c => fieldBits n c.toNat)) = true) :
    (fetchFields rom n pens.length q).1 = pens.map BitVec.toNat := by
  induction pens generalizing q with
  | nil => rfl
  | cons c pens ih =>
    obtain ⟨hc, hpens⟩ := List.forall_mem_cons.1 hfit
    rw [List.flatMap_cons, streamAt_append, Bool.and_eq_true, fieldBits_length] at h
    obtain ⟨hfirst, hrest⟩ := h
    rw [List.length_cons, fetchFields, fetchField_eq_of_stream hc hfirst, ih hpens hrest, List.map_cons]

/-- Each pen that is fetched fits in the width of the field (R105). -/
theorem fetchFields_lt {rom : List Byte} {n count v : Nat} {q : BitPort} (h : v ∈ (fetchFields rom n count q).1) :
    v < 2 ^ n := by
  induction count generalizing q with
  | zero => cases h
  | succ k ih =>
    obtain rfl | hrest := List.mem_cons.1 h
    · exact fetchField_lt rom n q
    · exact ih hrest

@[simp] theorem penOf_toNat (c : Byte) : penOf c.toNat = c := by
  rw [penOf, BitVec.ofNat_toNat, BitVec.setWidth_eq]

/-- A fetched pen fits in the width of its field (R105). -/
theorem penFits_penOf {n v : Nat} (h : v < 2 ^ n) : penFits n (penOf v) = true := by
  rw [penFits, penOf, BitVec.toNat_ofNat, decide_eq_true_iff]
  exact (Nat.mod_le v _).trans_lt h

/-! ## Commands that stand in the stream -/

/-- The bits are an opcode of the command and its operands: where the operands stand in the stream, the decoder reads the
command and passes them. -/
def Instr.ReadsBack (cfg : Config) (a p : Nat) (i : Instr) (bits : List Bool) : Prop :=
  ∃ (op : BitVec 3) (operands : List Bool), bits = fieldBits 3 op.toNat ++ operands ∧
    ∀ q, streamAt cfg.rom q.cursor.cur operands = true →
      decodeOperands cfg a p op q = (i, q.advance cfg.rom operands.length)

section
variable {cfg : Config} {a p : Nat} {i : Instr} {bits : List Bool} {q : BitPort}

/-- A command whose opcode and operands stand in the stream is the command that is decoded there. -/
theorem Instr.ReadsBack.decodeCommand (h : i.ReadsBack cfg a p bits)
    (hstream : streamAt cfg.rom q.cursor.cur bits = true) :
    decodeCommand cfg a p q = (i, q.advance cfg.rom bits.length) := by
  obtain ⟨op, operands, rfl, hread⟩ := h
  rw [streamAt_append, Bool.and_eq_true, fieldBits_length] at hstream
  obtain ⟨hop, hoperands⟩ := hstream
  rw [decodeCommand_eq, opcodeAt_of_stream hop, hread (q.advance cfg.rom 3) hoperands, BitPort.advance_advance,
    List.length_append, fieldBits_length]

/-- The opcode of an encoded operation is one that the command table gives it (R112). -/
theorem operation_of_encodeOp {o : Operation} {operands : List Bool} (h : encodeOp cfg o operands = some (.stream bits)) :
    ∃ op, cfg.operation op = o ∧ bits = fieldBits 3 op.toNat ++ operands := by
  obtain ⟨op, hop, hbits⟩ := Option.map_eq_some_iff.1 h
  cases hbits
  exact ⟨op, Option.some_inj.1 (lowestKey_sound hop), rfl⟩

/-- A command reads back if, for every opcode of its operation, its operands do. -/
theorem Instr.ReadsBack.of_op {o : Operation} {operands : List Bool}
    (he : encodeOp cfg o operands = some (.stream bits))
    (hread : ∀ op q, cfg.operation op = o → streamAt cfg.rom q.cursor.cur operands = true →
      decodeOperands cfg a p op q = (i, q.advance cfg.rom operands.length)) : i.ReadsBack cfg a p bits := by
  obtain ⟨op, hop, hbits⟩ := operation_of_encodeOp he
  exact ⟨op, operands, hbits, fun q => hread op q hop⟩

variable {op : BitVec 3}

theorem decodeOperands_of_draw {n : Nat} {c : Byte} (hop : cfg.operation op = .drawRun) (hn : n < 2 ^ a)
    (hc : penFits p c = true) (h : streamAt cfg.rom q.cursor.cur (fieldBits a n ++ fieldBits p c.toNat) = true) :
    decodeOperands cfg a p op q = (.draw n c, q.advance cfg.rom (a + p)) := by
  rw [streamAt_append, Bool.and_eq_true, fieldBits_length] at h
  obtain ⟨hlen, hpen⟩ := h
  simp only [decodeOperands, hop, fetchField_eq_of_stream hn hlen, penOf_toNat, BitPort.advance_advance,
    fetchField_eq_of_stream (q := q.advance cfg.rom a) (of_decide_eq_true hc) hpen]

theorem decodeOperands_of_copy {c : Byte} {cs : List Byte} (hop : cfg.operation op = .copyRun)
    (hn : cs.length < 2 ^ a) (hfit : (c :: cs).all (penFits p) = true)
    (h : streamAt cfg.rom q.cursor.cur
      (fieldBits a cs.length ++ (c :: cs).flatMap (fun c => fieldBits p c.toNat)) = true) :
    decodeOperands cfg a p op q = (.copy c cs, q.advance cfg.rom (a + (cs.length + 1) * p)) := by
  simp only [List.all_cons, Bool.and_eq_true, List.all_eq_true] at hfit
  obtain ⟨hc, hcs⟩ := hfit
  simp only [List.flatMap_cons, streamAt_append, Bool.and_eq_true, fieldBits_length] at h
  obtain ⟨hlen, hpen, hpens⟩ := h
  have hfirst := fetchField_eq_of_stream (q := q.advance cfg.rom a) (of_decide_eq_true hc) hpen
  have hrest := fetchFields_of_stream (q := (q.advance cfg.rom a).advance cfg.rom p)
    (fun d hd => of_decide_eq_true (hcs d hd)) hpens
  rw [BitPort.advance_advance] at hrest
  have hwidth : a + p + cs.length * p = a + (cs.length + 1) * p := by ring
  simp only [decodeOperands, hop, fetchField_eq_of_stream hn hlen, hfirst, hrest, fetchFields_port, penOf_toNat,
    BitPort.advance_advance, List.map_map, hwidth]
  rw [show penOf ∘ BitVec.toNat = id from funext penOf_toNat, List.map_id]

/-- Every well-formed command reads back from the bits that the encoder gives it (R105). -/
theorem Instr.ReadsBack.of_encode (hi : i.wellFormed cfg a p = true) (hhdr : ¬ Claims.isHeader i)
    (he : encode cfg a p i = some (.stream bits)) : i.ReadsBack cfg a p bits := by
  cases i with
  | hdr hp ha => exact absurd trivial hhdr
  | next | stop =>
    refine .of_op he fun op q hop _ => ?_
    rw [decodeOperands, hop, List.length_nil, BitPort.advance_zero]
  | draw n c =>
    simp only [Instr.wellFormed, Bool.and_eq_true, decide_eq_true_eq] at hi
    obtain ⟨⟨-, hn⟩, hc⟩ := hi
    refine .of_op he fun op q hop h => ?_
    rw [decodeOperands_of_draw hop hn hc h, List.length_append, fieldBits_length, fieldBits_length]
  | copy c cs =>
    simp only [Instr.wellFormed, Bool.and_eq_true, decide_eq_true_eq] at hi
    obtain ⟨⟨-, hn⟩, hfit⟩ := hi
    refine .of_op he fun op q hop h => ?_
    rw [decodeOperands_of_copy hop hn hfit h, List.length_append, fieldBits_length, Laws.pens_length, List.length_cons]
  | skip n =>
    simp only [Instr.wellFormed, Bool.and_eq_true, decide_eq_true_eq] at hi
    obtain ⟨-, hn⟩ := hi
    refine .of_op he fun op q hop h => ?_
    simp only [decodeOperands, hop, fetchField_eq_of_stream hn h, fieldBits_length]
  | argsz f | pensz f =>
    refine .of_op he fun op q hop h => ?_
    simp only [decodeOperands, hop, fetchField_eq_of_stream f.isLt h, fieldBits_length, BitVec.ofNat_toNat,
      BitVec.setWidth_eq]
  | unk op =>
    obtain ⟨hop, hbits⟩ := Option.ite_none_right_eq_some.1 he
    cases hbits
    refine ⟨op, [], (List.append_nil _).symm, fun q _ => ?_⟩
    rw [decodeOperands, hop, List.length_nil, BitPort.advance_zero]
  | sel q b | app q d => cases he
  | wrUndefinedIndex q k v =>
    obtain ⟨-, hbits⟩ := Option.ite_none_right_eq_some.1 he
    cases hbits
  | goUnknown c code =>
    obtain ⟨-, hbits⟩ := Option.ite_none_right_eq_some.1 he
    exact absurd (Laws.encodeStart_form hbits) Bool.false_ne_true
  | goFillAll c | goFillFromXY c | goFillRect c | goFillBand c | goHline c | goVline c | goRomDraw c =>
    exact absurd (Laws.encodeStart_form he) Bool.false_ne_true
  | _ => exact absurd (Laws.encodeReg_form he) Bool.false_ne_true

/-- The header reads back from the bits that the encoder gives it (R104). -/
theorem decodeHeader_of_encode (hhdr : Claims.isHeader i) (he : encode cfg a p i = some (.stream bits))
    (hstream : streamAt cfg.rom q.cursor.cur bits = true) :
    decodeHeader cfg q = (i, q.advance cfg.rom bits.length) := by
  cases i with
  | hdr hp ha =>
    cases he
    rw [streamAt_append, Bool.and_eq_true, fieldBits_length] at hstream
    obtain ⟨hpen, harg⟩ := hstream
    rw [decodeHeader_of_stream hpen harg, List.length_append, fieldBits_length, fieldBits_length]
  | _ => exact hhdr.elim

end

/-- Settles O2: the decoder reads the encoded item and advances the port by its bits. -/
theorem bitstreamDecodesAfterEncode : Obligations.BitstreamDecodesAfterEncode := by
  intro cfg a p i bits q hi he hstream
  refine ⟨fun hhdr => ?header, fun hhdr => ?command⟩
  case header =>
    rw [decodeHeader_of_encode hhdr he hstream]
    exact ⟨rfl, rfl⟩
  case command =>
    rw [(Instr.ReadsBack.of_encode hi hhdr he).decodeCommand hstream]
    exact ⟨rfl, rfl⟩

/-! ## Decoded commands -/

section
variable {cfg : Config} {a p : Nat} {i : Instr} {q : BitPort}

/-- The instruction is a well-formed command that is encoded as `n` bits of the stream. -/
def Instr.Encodable (cfg : Config) (a p : Nat) (i : Instr) (n : Nat) : Prop :=
  i.wellFormed cfg a p = true ∧ ¬ Claims.isHeader i ∧ ∃ bits, encode cfg a p i = some (.stream bits) ∧ bits.length = n

/-- An operation that some opcode has, has an opcode (R9). -/
theorem Config.hasOp_of_operation {o : Operation} {op : BitVec 3} (h : cfg.operation op = o) : cfg.hasOp o = true :=
  lowestKey_isSome.2 ⟨op, congrArg some h⟩

/-- A well-formed command of an operation with an opcode is encoded as the opcode and its operands. -/
theorem Instr.Encodable.of_op {o : Operation} {operands : List Bool} (hop : cfg.hasOp o = true)
    (he : encode cfg a p i = encodeOp cfg o operands) (hi : i.wellFormed cfg a p = true) (hhdr : ¬ Claims.isHeader i) :
    i.Encodable cfg a p (3 + operands.length) := by
  obtain ⟨op, -, hbits⟩ := encodeOp_of_hasOp hop operands
  exact ⟨hi, hhdr, _, he.trans hbits, by rw [List.length_append, fieldBits_length]⟩

/-- The operands that are fetched after any opcode make a command that is encoded as its opcode's three bits and as many
bits as the cursor has moved by (R105). -/
theorem decodeOperands_encodable (hsizes : sizesLegal a p = true) (op : BitVec 3) :
    ∃ n, (decodeOperands cfg a p op q).1.Encodable cfg a p (3 + n) ∧
      (decodeOperands cfg a p op q).2.cursor.cur = q.cursor.cur + n := by
  unfold decodeOperands
  cases ho : cfg.operation op with
  | nextLine | stop =>
    have hop := Config.hasOp_of_operation ho
    exact ⟨_, .of_op (operands := []) hop rfl hop id, rfl⟩
  | unknown =>
    refine ⟨0, ⟨decide_eq_true ho, id, fieldBits 3 op.toNat, if_pos ho, fieldBits_length _ _⟩, rfl⟩
  | changeArgSize | changePenSize =>
    have hop := Config.hasOp_of_operation ho
    refine ⟨_, .of_op hop rfl hop id, ?_⟩
    simp
  | skip =>
    have hop := Config.hasOp_of_operation ho
    refine ⟨_, .of_op hop rfl ?_ id, ?_⟩
    · simp [Instr.wellFormed, hop, hsizes, fetchField_lt]
    · simp
  | drawRun =>
    have hop := Config.hasOp_of_operation ho
    refine ⟨_, .of_op hop rfl ?_ id, ?_⟩
    · simp [Instr.wellFormed, hop, hsizes, fetchField_lt, penFits_penOf]
    · simp [Nat.add_assoc]
  | copyRun =>
    have hop := Config.hasOp_of_operation ho
    refine ⟨_, .of_op hop rfl ?_ id, ?_⟩
    · have hpens : ∀ v ∈ (fetchFields cfg.rom p (fetchField cfg.rom a q).1
          (fetchField cfg.rom p (fetchField cfg.rom a q).2).2).1, penFits p (penOf v) = true :=
        fun v hv => penFits_penOf (fetchFields_lt hv)
      simpa [Instr.wellFormed, hop, hsizes, fetchField_lt, penFits_penOf] using hpens
    · simp only [fetchFields_cur, fetchField_cur, List.length_append, fieldBits_length, Laws.pens_length,
        List.length_cons, List.length_map, fetchFields_length]
      ring

end

/-- Settles O4: the operation is one that the opcode just read has, and fetched operands fit in their own sizes. -/
theorem decodedCommandsAreWellFormed : Obligations.DecodedCommandsAreWellFormed := by
  intro cfg a p q hsizes
  rw [decodeCommand_eq]
  obtain ⟨n, ⟨hi, hhdr, bits, he, hbits⟩, hcur⟩ :=
    decodeOperands_encodable (q := q.advance cfg.rom 3) hsizes (opcodeAt cfg q)
  exact ⟨hi, hhdr, bits, he, by rw [hcur, hbits, ← Nat.add_assoc]; rfl⟩

/-- Settles O5: each word is looked up in the default tables, and each stream is read bit by bit. -/
theorem wordsOfTheEncodingTablesDecode : Obligations.WordsOfTheEncodingTablesDecode :=
  ⟨by decide, by decide, by decide, by decide, by decide, by decide, by decide, by decide, by decide⟩

/-- Settles O41: inside the ROM each fetched bit is the bit of its byte, and the port only moves on. -/
theorem fetchReadsTheRomMostSignificantFirst : Obligations.FetchReadsTheRomMostSignificantFirst := by
  intro rom n q hin
  refine ⟨fetchField_lt rom n q, fun i hi => ?_, ?_⟩
  · rw [fetchField_testBit rom q hi, romBit_inside (by omega)]
  · rw [fetchField_port, BitPort.advance_inside hin]

end Sys2Proof

namespace Sys2Proof.Machine

/-! ## Steps of encoded items -/

/-- The records of advancing a fresh port are those of fetching as many bits (R202). -/
theorem advance_raised_eq_overruns (cfg : Config) (c : BitCursor) (n : Nat) :
    (c.port.advance cfg.rom n).raised.map Diag.romOverrun = Claims.overruns cfg c n := by
  unfold BitPort.advance
  rw [BitCursor.port_raised, List.nil_append]
  exact apply_ite (List.map Diag.romOverrun) _ _ _

/-- Settles O8: the decoder reads the encoded item and advances a fresh port by its bits. -/
theorem stepRunsTheEncodedItem : Obligations.StepRunsTheEncodedItem := by
  intro s i bits
  refine ⟨fun c a p hd hhdr he hstream => ?header, fun w hd hhdr hi he hstream => ?command⟩
  case header =>
    rw [← advance_raised_eq_overruns, step_of_instr (fetch_of_header hd), decodeHeader_of_encode hhdr he hstream]
    rfl
  case command =>
    rw [← advance_raised_eq_overruns,
      step_of_decodeCommand hd ((Instr.ReadsBack.of_encode hi hhdr he).decodeCommand hstream)]
    rfl

end Sys2Proof.Machine

/-! Proofs of the statements on 40_register_protocol.md: what the address, flag and bank writes store (R141, R142, R146,
R148, R155 to R157, R164 to R172), what pair B does without EIGHT_LAYER (R134, R162), and which instruction a step runs
(R65, R80, R200). -/

namespace Sys2Proof

/-! ## Host words without EIGHT_LAYER -/

/-- Without EIGHT_LAYER every index of pair B is undefined (R134). -/
theorem Config.reg_b_of_four_layers {cfg : Config} (h : cfg.eightLayer = false) (k : BitVec 6) : cfg.reg .b k = none := by
  simp [Config.reg, h]

/-! ## The word of a select byte and an apply byte (R101, R102) -/

theorem wordIndex_pairWord (sel dat : Byte) : wordIndex (pairWord sel dat) = sel.extractLsb' 0 6 :=
  BitVec.extractLsb'_append_eq_of_le (by decide)

theorem wordCarry_pairWord (sel dat : Byte) : wordCarry (pairWord sel dat) = sel.extractLsb' 6 2 :=
  BitVec.extractLsb'_append_eq_of_le (by decide)

theorem wordData_pairWord (sel dat : Byte) : wordData (pairWord sel dat) = dat :=
  BitVec.extractLsb'_append_eq_right

end Sys2Proof

namespace Sys2Proof.Machine

/-! ## The bytes of `blit_address` (R155 to R157) -/

section
variable (a : BitVec 24) (d : Byte)

/-- The mask of ADDR_LO keeps bits 23:8, and the new byte fills bits 7:0. -/
theorem addrWithLo_eq_append : addrWithLo a d = a.extractLsb' 8 16 ++ d := by
  have hmask : ∀ i : Fin 24, (0xFFFF00 : BitVec 24).getLsbD i = decide (8 ≤ i.val) := by decide
  apply BitVec.eq_of_getLsbD_eq
  intro i hi
  rw [addrWithLo, BitVec.getLsbD_or, BitVec.getLsbD_and, hmask ⟨i, hi⟩, BitVec.getLsbD_append]
  by_cases hlo : i < 8
  · simp [hlo, hi]
  · have hkept : 8 ≤ i ∧ 8 + (i - 8) = i ∧ i - 8 < 16 := by omega
    simp [hlo, hi, hkept]

/-- The mask of ADDR_MID keeps bits 23:16 and 7:0, and the new byte fills bits 15:8. -/
theorem addrWithMid_eq_append : addrWithMid a d = a.extractLsb' 16 8 ++ d ++ a.extractLsb' 0 8 := by
  have hmask : ∀ i : Fin 24, ((0xFF00FF : Nat) : BitVec 24).getLsbD i = decide (i.val < 8 ∨ 16 ≤ i.val) := by decide
  apply BitVec.eq_of_getLsbD_eq
  intro i hi
  rw [addrWithMid, BitVec.getLsbD_or, BitVec.getLsbD_and, hmask ⟨i, hi⟩, BitVec.getLsbD_append, BitVec.getLsbD_append]
  by_cases hlo : i < 8
  · simp [hlo, hi]
  · by_cases hmid : i < 16
    · have hnew : ¬ 16 ≤ i ∧ i - 8 < 24 ∧ i - 8 < 8 := by omega
      simp [hlo, hi, hnew]
    · have hkept : 16 ≤ i ∧ ¬ i - 8 < 8 ∧ 16 + (i - 8 - 8) = i ∧ i - 8 - 8 < 8 := by omega
      simp [hlo, hi, hkept, BitVec.getLsbD_of_ge d (i - 8) (by omega)]

/-- The mask of ADDR_HI keeps bits 15:0, and the new byte fills bits 23:16. -/
theorem addrWithHi_eq_append : addrWithHi a d = d ++ a.extractLsb' 0 16 := by
  have hmask : ∀ i : Fin 24, ((0x00FFFF : Nat) : BitVec 24).getLsbD i = decide (i.val < 16) := by decide
  apply BitVec.eq_of_getLsbD_eq
  intro i hi
  rw [addrWithHi, BitVec.getLsbD_or, BitVec.getLsbD_and, hmask ⟨i, hi⟩, BitVec.getLsbD_append]
  by_cases hlo : i < 16
  · simp [hlo, hi]
  · simp [hlo, hi]

end

/-! ## Records of a register write -/

theorem raiseIf_eq (s : State) (c : Bool) (d : Diag) :
    s.raiseIf c d = { s with diag := s.diag ++ (if c then [d] else []) } := by
  cases c <;> simp [State.raiseIf, State.raise]

/-- FLIP's test of its reserved bits is that they are not zero (R141). -/
theorem records_of_reserved_bits (v : BitVec 10) (d : Diag) :
    (if flipReservedBits v != 0 then [d] else []) = if v.extractLsb' 2 2 = 0 then [] else [d] := by
  rw [flipReservedBits]
  by_cases hzero : v.extractLsb' 2 2 = 0
  · rw [if_pos hzero, hzero]; rfl
  · rw [if_neg hzero, if_pos (by simpa using hzero)]

/-! ## Rows of pair B (R134) -/

section
variable {s : State} {r : Reg} {v : BitVec 10} {i : Instr}

/-- The row of a register of pair B is the register's rule, where pair B exists or pair A reaches the register. -/
theorem exec_writeRow_of_pairB (hr : Claims.ofPairB r) (hi : Claims.writeRow r v = some i) (s : State) :
    exec i s = .next (pairBWrite r (writeReg r) v s) := by
  revert hr hi
  fun_cases Claims.writeRow r v <;> rintro hr ⟨⟩
  -- The WRB rows are that by definition; the other registers are not of pair B.
  any_goals rfl
  all_goals simp [Claims.ofPairB] at hr

/-- A register of pair B is stored in the registers only, whatever the configuration is. -/
theorem writeReg_withConfig_of_pairB (hr : Claims.ofPairB r) (v : BitVec 10) (s : State) (cfg : Config) :
    writeReg r v { s with config := cfg } = { writeReg r v s with config := cfg } := by
  cases r with
  | start | flip => exact hr.elim
  | _ => rfl

/-- The index of a register on pair A is found exactly where pair A reaches it. -/
theorem index_a_eq_false (h : ∀ k, s.config.reg .a k ≠ some r) : (s.config.index .a r).isSome = false := by
  rw [← Bool.not_eq_true, Config.index_isSome]
  exact fun ⟨k, hk⟩ => h k hk

end

/-! ## The statements -/

/-- Settles O14: masking a byte out and putting the new one in is joining the kept bytes and the new one. -/
theorem addressWritesReplaceTheirByte : Obligations.AddressWritesReplaceTheirByte := by
  intro s v
  rw [← lowByte, ← addrWithLo_eq_append, ← addrWithMid_eq_append, ← addrWithHi_eq_append]
  exact ⟨rfl, rfl, rfl⟩

/-- Settles O18: without EIGHT_LAYER pair B defines no index, so an apply there and a WRB row only record, unless pair A
reaches the row's register. -/
theorem pairBWithoutEightLayersIsUndefined : Obligations.PairBWithoutEightLayersIsUndefined := by
  intro s h4
  refine ⟨fun w => ?word, fun d => ?apply, fun r v i hr hi => ⟨fun hout => ?notReached, fun hin => ?reached⟩⟩
  case word => exact decodeWord_of_undefined (Config.reg_b_of_four_layers h4 _)
  case apply =>
    change Host.Outcome.next (applyByte .b d s) = _
    rw [applyByte, applyRegister, Config.reg_b_of_four_layers h4, wordIndex_pairWord, wordCarry_pairWord,
      wordData_pairWord]
    rfl
  case notReached =>
    refine ⟨layoutIndexB s.config r, ?_⟩
    rw [exec_writeRow_of_pairB hr hi, pairBWrite, h4, index_a_eq_false hout]
    rfl
  case reached =>
    have hindex : (s.config.index .a r).isSome = true := Config.index_isSome.2 hin
    refine ⟨writeReg r v s, exec_writeRow hi (by rw [hindex, Bool.or_true]), ?_⟩
    rw [exec_writeRow hi (Bool.true_or _), writeReg_withConfig_of_pairB hr]

/-- Settles O6: outside an invocation the entry is taken off the inbox and served. -/
theorem stepRunsTheHostsInstruction : Obligations.StepRunsTheHostsInstruction := by
  intro s p b w address es hd
  refine ⟨fun hi => ?select, fun hi => ?apply, fun hi => ?pair, fun hi hphase => ?portSelect,
    fun hi hphase => ?portApply⟩
  case select | apply | pair => exact step_of_instr (fetch_of_entry hd hi)
  case portSelect =>
    rw [step_of_instr (fetch_of_entry hd hi), if_neg (by simpa [portPhase] using hphase)]
    rfl
  case portApply =>
    rw [step_of_instr (fetch_of_entry hd hi), if_pos (by simpa [portPhase] using hphase)]
    rfl

/-- Settles O7: in front of a header or of a command a step decodes that item, and the fetch has moved the cursor. -/
theorem stepRunsTheStreamsItem : Obligations.StepRunsTheStreamsItem := by
  intro s
  refine ⟨fun c hd i q hdecode => ?header, fun w hd i q hdecode => step_of_decodeCommand hd hdecode⟩
  case header =>
    rw [step_of_instr (fetch_of_header hd), hdecode]
    rfl

/-- Settles O9: with nothing to serve the fetch is idle. -/
theorem idleDeviceWaits : Obligations.IdleDeviceWaits := fun _ hd hi => step_of_idle (fetch_of_no_entry hd hi)

/-- Settles O15: each write is its rule; FLIP raises its record exactly where the reserved bits are not zero. -/
theorem writesWhoseFormatIsDecided : Obligations.WritesWhoseFormatIsDecided := by
  intro s v
  refine ⟨rfl, rfl, rfl, ?flip, rfl, rfl, rfl, rfl⟩
  case flip =>
    change Host.Outcome.next (writeFlip v s) = _
    rw [writeFlip, raiseIf_eq, records_of_reserved_bits]
    rfl

/-- Settles O16: each row is the rule of its bank with its own layer. -/
theorem layerBankWritesStoreTheirLayer : Obligations.LayerBankWritesStoreTheirLayer := by
  intro s v
  and_intros <;> rfl

/-- Settles O17: with EIGHT_LAYER a WRB row is the rule of its register. -/
theorem pairBWritesWithEightLayers : Obligations.PairBWritesWithEightLayers := by
  intro s v h8
  have hrow : ∀ r f, (Host.Outcome.next (pairBWrite r f v s) : Result) = .next (f v s) := fun r f =>
    congrArg Host.Outcome.next (pairBWrite_of_reached (by rw [h8, Bool.true_or]) f v)
  and_intros <;> exact hrow _ _

/-- Settles O19: the row of an undefined index is the raise of its record. -/
theorem undefinedIndexOnlyRecords : Obligations.UndefinedIndexOnlyRecords := fun _ _ _ _ => rfl

/-- Settles O20: the row of an unknown start code is the raise of its record. -/
theorem unknownStartOnlyRecords : Obligations.UnknownStartOnlyRecords := fun _ _ _ => rfl

end Sys2Proof.Machine

/-! Proofs of the statements on what every operation of the device leaves and accounts for: the configuration, the latches
and the host's entries stay, DIAG is extended only (R60, R300), PENDING follows tokens and pulses (R57, R160, R311), and no
step faults (R258, R304). -/

namespace Sys2Proof.Machine

/-! ## Tokens and pulses among the outputs -/

theorem tokensIn_append (xs ys : List Output) : tokensIn (xs ++ ys) = tokensIn xs + tokensIn ys := by
  induction xs with
  | nil => simp [tokensIn]
  | cons o xs ih =>
    cases o with
    | token f d => simp only [List.cons_append, tokensIn, ih]; omega
    | _ => simp only [List.cons_append, tokensIn, ih]

theorem pulsesIn_append (xs ys : List Output) : pulsesIn (xs ++ ys) = pulsesIn xs + pulsesIn ys := by
  induction xs with
  | nil => simp [pulsesIn]
  | cons o xs ih =>
    cases o with
    | blitComplete => simp only [List.cons_append, pulsesIn, ih]; omega
    | _ => simp only [List.cons_append, pulsesIn, ih]

/-! ## What a state accounts for -/

/-- The diagnostics of `t` extend those of `s`, and PENDING has changed by the tokens handed out less the pulses given. -/
structure State.Accounts (s t : State) : Prop where
  diag : s.diag <+: t.diag
  tokens : t.pending + pulsesIn t.outputs + tokensIn s.outputs = s.pending + pulsesIn s.outputs + tokensIn t.outputs

/-- What every operation of the device keeps: it accounts for what it does, and leaves the configuration, the latches and
the host's entries. -/
structure State.Acts (s t : State) : Prop extends State.Accounts s t where
  config : t.config = s.config
  latchA : t.latchA = s.latchA
  latchB : t.latchB = s.latchB
  inbox : t.inbox = s.inbox

section
variable {s t u : State}

theorem State.Accounts.refl (s : State) : s.Accounts s := ⟨List.prefix_refl _, rfl⟩

theorem State.Acts.refl (s : State) : s.Acts s := ⟨.refl s, rfl, rfl, rfl, rfl⟩

theorem State.Acts.trans (h : s.Acts t) (k : t.Acts u) : s.Acts u where
  diag := h.diag.trans k.diag
  tokens := by have := h.tokens; have := k.tokens; omega
  config := k.config.trans h.config
  latchA := k.latchA.trans h.latchA
  latchB := k.latchB.trans h.latchB
  inbox := k.inbox.trans h.inbox

theorem State.Acts.withRegs (h : s.Acts t) (r : RegisterFile) : s.Acts (t.withRegs r) := { h with }
theorem State.Acts.withMem (h : s.Acts t) (m : Memory) : s.Acts (t.withMem m) := { h with }
theorem State.Acts.withDecoder (h : s.Acts t) (d : Decoder) : s.Acts (t.withDecoder d) := { h with }

/-- Raising a diagnostic extends DIAG (R300). -/
theorem State.Acts.raise (h : s.Acts t) (d : Diag) : s.Acts (t.raise d) :=
  { h with diag := h.diag.trans (List.prefix_append _ _) }

theorem State.Acts.raiseIf (h : s.Acts t) (c : Bool) (d : Diag) : s.Acts (t.raiseIf c d) := by
  cases c with
  | false => exact h
  | true => exact h.raise d

theorem State.Acts.raiseOverruns (h : s.Acts t) (bs : List Nat) : s.Acts (t.raiseOverruns bs) :=
  { h with diag := h.diag.trans (List.prefix_append _ _) }

/-- Scheduling a completion hands out a token and counts it (R160). -/
theorem State.Acts.schedule (h : s.Acts t) (f : DelayFamily) : s.Acts (t.schedule f) where
  diag := h.diag
  tokens := by
    have := h.tokens
    simp only [State.schedule_pending, State.schedule_outputs, tokensIn_append, pulsesIn_append, tokensIn, pulsesIn]
    omega
  config := h.config
  latchA := h.latchA
  latchB := h.latchB
  inbox := h.inbox

/-- Handing out neither a token nor a pulse leaves PENDING to the books. -/
theorem State.Accounts.emit (h : s.Accounts t) {o : Output} (htoken : tokensIn [o] = 0) (hpulse : pulsesIn [o] = 0) :
    s.Accounts (t.emit o) where
  diag := h.diag
  tokens := by
    have := h.tokens
    simp only [State.emit_pending, State.emit_outputs, tokensIn_append, pulsesIn_append, htoken, hpulse]
    omega

end

/-! ## Registers and START -/

section
variable (s : State)

theorem acts_plot (x y : Int) (c : Byte) : s.Acts (plot x y c s) := by
  rw [plot_eq_withMem]
  exact (State.Acts.refl s).withMem _

theorem acts_fillRect : s.Acts (fillRect s) := by
  rw [fillRect, plotRows_eq_withMem]
  exact (State.Acts.refl s).withMem _

theorem acts_hlinePixel : s.Acts (hlinePixel s) := (acts_plot s _ _ _).withRegs _

theorem acts_vlinePixel : s.Acts (vlinePixel s) := (acts_plot s _ _ _).withRegs _

theorem acts_hline : s.Acts (hline s) :=
  repeatTimes_keeps (P := s.Acts) (fun u hu => hu.trans (acts_hlinePixel u)) _ (.refl s)

theorem acts_vline : s.Acts (vline s) :=
  repeatTimes_keeps (P := s.Acts) (fun u hu => hu.trans (acts_vlinePixel u)) _ (.refl s)

/-- START with any code: a ROM draw sets the decoder, a direct primitive stores and schedules, an unknown code records
(R160, R161). -/
theorem acts_runStart (code : Byte) : s.Acts (runStart code s) := by
  have h := State.Acts.refl s
  unfold runStart
  cases s.config.startOp code with
  | none => exact h.raise _
  | some o =>
    cases o with
    | romDraw => exact h.withDecoder _
    | fillAll | fillFromXY | fillBand => exact (h.withMem _).schedule .direct
    | fillRect => exact (acts_fillRect s).schedule .direct
    | hline => exact (acts_hline s).schedule .direct
    | vline => exact (acts_vline s).schedule .direct

/-- The rule of a register writes the registers; only START does more, and FLIP may raise a record. -/
theorem acts_writeReg (r : Reg) (v : BitVec 10) : s.Acts (writeReg r v s) := by
  cases r with
  | start => exact acts_runStart s _
  | flip => exact ((State.Acts.refl s).withRegs _).raiseIf _ _
  | _ => exact (State.Acts.refl s).withRegs _

theorem acts_applyRegister (q : PortPair) (k : BitVec 6) (v : BitVec 10) : s.Acts (applyRegister q k v s) := by
  unfold applyRegister
  cases s.config.reg q k with
  | none => exact (State.Acts.refl s).raise _
  | some r => exact acts_writeReg s r v

/-! ## Bitstream items -/

theorem acts_runHeader (hp ha : Nat) (c : BitCursor) : s.Acts (runHeader hp ha c s) :=
  (((State.Acts.refl s).raiseIf _ _).raiseIf _ _).withDecoder _

theorem acts_runPens (pens : List Byte) (w : Working) : s.Acts (runPens pens s w) := by
  rw [runPens, plotRun_eq_withMem]
  exact ((State.Acts.refl s).withMem _).withDecoder _

end

theorem State.Acts.finishInvocation {s t : State} (h : s.Acts t) (cur : Nat) : s.Acts (finishInvocation cur t) :=
  ((h.withRegs _).withDecoder _).schedule .rom

section
variable {s t : State} {w : Working}

/-- Every command of the bitstream completes and accounts for what it does (R200). -/
theorem exec_operands_acts (hd : s.decoder = .running w) (cfg : Config) (a n : Nat) (op : BitVec 3) (p : BitPort) :
    ∃ t, exec (decodeOperands cfg a n op p).1 s = .next t ∧ s.Acts t := by
  have h := State.Acts.refl s
  unfold decodeOperands
  cases cfg.operation op with
  | nextLine | skip => exact ⟨_, onWorking_of_running hd _, h.withDecoder _⟩
  | drawRun | copyRun => exact ⟨_, onWorking_of_running hd _, acts_runPens s _ w⟩
  | changeArgSize | changePenSize => exact ⟨_, onWorking_of_running hd _, (h.raiseIf _ _).withDecoder _⟩
  | unknown => exact ⟨_, onWorking_of_running hd _, (h.raise _).finishInvocation _⟩
  | stop => exact ⟨_, onWorking_of_running hd _, h.finishInvocation _⟩

/-- Every step of an invocation completes and accounts for what it does (R200). -/
theorem step_acts_of_invocation (hd : s.decoder ≠ .idle) : ∃ t, step s = .next t ∧ s.Acts t := by
  have h := State.Acts.refl s
  cases hc : s.decoder with
  | idle => exact absurd hc hd
  | header c => exact ⟨_, step_of_decodeHeader hc rfl, (h.raiseOverruns _).trans (acts_runHeader _ _ _ _)⟩
  | running w =>
    rw [step_of_instr (fetch_of_running hc)]
    obtain ⟨t, ht, hacts⟩ := exec_operands_acts (State.withDecoder_decoder (s.raiseOverruns _) _) _ _ _ _ _
    exact ⟨t, ht, ((h.raiseOverruns _).withDecoder _).trans hacts⟩

/-- A step of an invocation only draws, or it finishes the invocation after drawing only (R200). -/
theorem step_of_invocation_cases (hd : s.decoder ≠ .idle) (ht : step s = .next t) :
    s.OnlyDraws t ∨ ∃ cur u, s.OnlyDraws u ∧ t = finishInvocation cur u := by
  cases hc : s.decoder with
  | idle => exact absurd hc hd
  | header c =>
    obtain ⟨t', -, hstep, hdraws, -⟩ := step_header_goes_on hc
    cases hstep.symm.trans ht
    exact .inl hdraws
  | running w =>
    by_cases hop : (s.config.operation (opcodeAt s.config w.cursor.port)).Ends
    · obtain ⟨cur, u, hstep, hdraws⟩ := step_running_ends hc hop
      cases hstep.symm.trans ht
      exact .inr ⟨cur, u, hdraws, rfl⟩
    · obtain ⟨t', -, hstep, hdraws, -⟩ := step_running_goes_on hc hop
      cases hstep.symm.trans ht
      exact .inl hdraws

/-! ## Entries of the host -/

theorem acts_checkPriorities (s : State) : s.Acts (checkPriorities s) := by
  unfold checkPriorities State.checkPriority
  split_ifs
  · exact ((State.Acts.refl s).raiseIf _ _).raiseIf _ _
  · exact (State.Acts.refl s).raiseIf _ _

theorem accounts_completeToken (h : 0 < s.pending) :
    s.Accounts ({ s with pending := s.pending - 1 }.emit .blitComplete) where
  diag := List.prefix_refl _
  tokens := by
    simp only [State.emit_pending, State.emit_outputs, tokensIn_append, pulsesIn_append, tokensIn, pulsesIn]
    omega

theorem accounts_withLatch (s : State) (q : PortPair) (b : Byte) : s.Accounts (s.withLatch q b) := by
  cases q <;> exact { State.Accounts.refl s with }

/-- Setting a latch first changes nothing that is accounted for. -/
theorem State.Accounts.of_withLatch {q : PortPair} {b : Byte} (h : (s.withLatch q b).Accounts t) : s.Accounts t := by
  cases q <;> exact { h with }

/-- Serving any entry of the host completes and, but for reset, accounts for what it does; only a `complete()` with no
token pending does not complete (R65, R311). -/
theorem step_of_serve {u : State} {e : HostEntry} (he : ¬ (e = .complete ∧ u.pending = 0)) (hf : fetch s = serve e u) :
    ∃ t, step s = .next t ∧ (e ≠ .reset → u.Accounts t) := by
  have h := State.Accounts.refl u
  cases e with
  | select q b => exact ⟨_, step_of_instr hf, fun _ => accounts_withLatch u q b⟩
  | apply q d => exact ⟨_, step_of_instr hf, fun _ => (acts_applyRegister u q _ _).toAccounts⟩
  | wideWrite q w =>
    have hx := exec_decodeWord (u.withLatch q (wordSelect w)) q w
    rw [State.withLatch_config, ← step_of_instr hf] at hx
    exact ⟨_, hx, fun _ => (acts_applyRegister _ q _ _).toAccounts.of_withLatch⟩
  | portWrite a b =>
    rw [step_of_instr hf]
    split_ifs
    · exact ⟨_, rfl, fun _ => (acts_applyRegister u .a _ _).toAccounts⟩
    · exact ⟨_, rfl, fun _ => accounts_withLatch u .a b⟩
  | readStatus => exact ⟨_, step_of_done hf, fun _ => h.emit rfl rfl⟩
  | get f => exact ⟨_, step_of_done hf, fun _ => h.emit rfl rfl⟩
  | complete =>
    have hpending : 0 < u.pending := Nat.pos_of_ne_zero fun h0 => he ⟨rfl, h0⟩
    exact ⟨_, (step_of_done hf).trans (completeToken_of_pending hpending), fun _ => accounts_completeToken hpending⟩
  | compositeFrame => exact ⟨_, step_of_done hf, fun _ => (acts_checkPriorities u).toAccounts.emit rfl rfl⟩
  | reset => exact ⟨_, step_of_done hf, fun hne => absurd rfl hne⟩

/-! ## Steps -/

/-- Every step but that of a `complete()` with no token pending completes and, but for reset, accounts for what it does. -/
theorem step_accounts (hc : ¬ (Claims.Serves s .complete ∧ s.pending = 0)) :
    ∃ t, step s = .next t ∧ (¬ Claims.Serves s .reset → s.Accounts t) := by
  by_cases hd : s.decoder = .idle
  · cases hi : s.inbox with
    | nil => exact ⟨s, step_of_idle (fetch_of_no_entry hd hi), fun _ => .refl s⟩
    | cons e es =>
      obtain ⟨t, ht, haccounts⟩ := step_of_serve (u := s.withInbox es)
        (fun ⟨he, h0⟩ => hc ⟨⟨hd, es, he ▸ hi⟩, h0⟩) (fetch_of_entry hd hi)
      exact ⟨t, ht, fun hr => { haccounts (fun he => hr ⟨hd, es, he ▸ hi⟩) with }⟩
  · obtain ⟨t, ht, hacts⟩ := step_acts_of_invocation hd
    exact ⟨t, ht, fun _ => hacts.toAccounts⟩

/-- The step of a `complete()` with no token pending is refused (log 14). -/
theorem step_refused_of_complete (h : Claims.Serves s .complete) (h0 : s.pending = 0) :
    step s = .refused .completeNotEnabled := by
  obtain ⟨hd, es, hi⟩ := h
  rw [step_of_complete hd hi]
  exact completeToken_of_none_pending (s := s.withInbox es) h0

/-- A step that answers a next state and does not serve a reset accounts for what it does. -/
theorem accounts_of_step (ht : step s = .next t) (hr : ¬ Claims.Serves s .reset) : s.Accounts t := by
  have hc : ¬ (Claims.Serves s .complete ∧ s.pending = 0) := fun ⟨hserves, h0⟩ => by
    cases (step_refused_of_complete hserves h0).symm.trans ht
  obtain ⟨t', ht', haccounts⟩ := step_accounts hc
  cases ht'.symm.trans ht
  exact haccounts hr

end

/-! ## The statements -/

/-- Settles O11: the row that latch and data byte decode to does what an apply of the data byte does. -/
theorem applyActsAsTheSelectedRow : Obligations.ApplyActsAsTheSelectedRow := by
  intro s p d
  have h : s.Acts (applyByte p d s) := acts_applyRegister s p _ _
  exact ⟨applyByte p d s, rfl, exec_decodeWord s p _, h.latchA, h.latchB, h.config, h.inbox⟩

/-- Settles O45: until its end an invocation only draws, and its end writes `blit_address` and hands out the token. -/
theorem invocationStepsWriteOnlyTheirOwn : Obligations.InvocationStepsWriteOnlyTheirOwn := by
  intro s hd
  obtain ⟨t, ht, h⟩ := step_acts_of_invocation hd
  refine ⟨t, ht, h.config, h.latchA, h.latchB, h.inbox, ?_⟩
  obtain hdraws | ⟨cur, u, hdraws, rfl⟩ := step_of_invocation_cases hd ht
  · have hregs : t.regs = s.regs := by rw [hdraws.eq]
    exact ⟨by rw [hregs], h.diag, fun _ => ⟨hregs, hdraws.pending, hdraws.outputs⟩⟩
  · have hregs : u.regs = s.regs := by rw [hdraws.eq]
    refine ⟨?_, h.diag, fun hgoes => absurd rfl hgoes⟩
    rw [← hregs]
    rfl

/-- Settles O56: every step answers a next state but that of a `complete()` with no token pending, which is refused. -/
theorem constructedDeviceNeverFails : Obligations.ConstructedDeviceNeverFails := by
  intro s
  by_cases hc : Claims.Serves s .complete ∧ s.pending = 0
  · obtain ⟨hserves, h0⟩ := hc
    have hrefused := step_refused_of_complete hserves h0
    refine ⟨fun r hr => ?_, fun r hr => ?_, fun hn => absurd ⟨hserves, h0⟩ hn⟩
    · cases hrefused.symm.trans hr
    · cases hrefused.symm.trans hr
      exact ⟨rfl, hserves, h0⟩
  · obtain ⟨t, ht, -⟩ := step_accounts hc
    refine ⟨fun r hr => ?_, fun r hr => ?_, fun _ => ⟨t, ht⟩⟩
    · cases ht.symm.trans hr
    · cases ht.symm.trans hr

/-- Settles O57: no operation takes a diagnostic back, and only reset empties DIAG. -/
theorem diagnosticsOnlyGrow : Obligations.DiagnosticsOnlyGrow := fun _ _ ht hr => (accounts_of_step ht hr).diag

/-- Settles O58: a token is counted where it is handed out, and taken off PENDING where the pulse is given. -/
theorem pendingCountsOutstandingTokens : Obligations.PendingCountsOutstandingTokens :=
  fun _ _ ht hr => (accounts_of_step ht hr).tokens

end Sys2Proof.Machine

/-! Proofs of the statements on 42_rasterizer.md section 2: which bytes each direct primitive sets (R251 to R257), where
HLINE and VLINE leave their coordinate (R256, R257), and the tokens of the direct primitives (R160). -/

namespace Sys2Proof.Machine

/-! ## Drawing with one pen -/

/-- `n` is `m` with the byte `c` at every address of `H`. -/
def Memory.DrawnFrom (H : Nat → Prop) (c : Byte) (m n : Memory) : Prop :=
  ∀ a, (H a → n.read a = c) ∧ (¬ H a → n.read a = m.read a)

section
variable {c : Byte} {m m' n : Memory} {count : Nat}

theorem Memory.DrawnFrom.congr {H K : Nat → Prop} (h : Memory.DrawnFrom H c m n) (hHK : ∀ a, K a ↔ H a) :
    Memory.DrawnFrom K c m n := fun a => ⟨fun hK => (h a).1 ((hHK a).1 hK), fun hK => (h a).2 (mt (hHK a).2 hK)⟩

/-- No round draws nothing. -/
theorem Memory.drawnFrom_zero (H : Nat → Nat → Prop) : Memory.DrawnFrom (fun a => ∃ k < 0, H k a) c m m := by
  intro a
  exact ⟨fun ⟨k, hk, _⟩ => absurd hk (Nat.not_lt_zero k), fun _ => rfl⟩

/-- A first round and then `count` more draw what the `count + 1` rounds draw. -/
theorem Memory.DrawnFrom.cons {H : Nat → Nat → Prop} (hfirst : Memory.DrawnFrom (H 0) c m m')
    (hrest : Memory.DrawnFrom (fun a => ∃ k < count, H (k + 1) a) c m' n) :
    Memory.DrawnFrom (fun a => ∃ k < count + 1, H k a) c m n := by
  intro a
  by_cases hlater : ∃ k < count, H (k + 1) a
  · refine ⟨fun _ => (hrest a).1 hlater, fun hnone => absurd ?_ hnone⟩
    obtain ⟨k, hk, hat⟩ := hlater
    exact ⟨k + 1, by omega, hat⟩
  · rw [(hrest a).2 hlater]
    refine ⟨fun ⟨k, hk, hat⟩ => ?_, fun hnone => (hfirst a).2 fun hat => hnone ⟨0, by omega, hat⟩⟩
    cases k with
    | zero => exact (hfirst a).1 hat
    | succ k => exact absurd ⟨k, by omega, hat⟩ hlater

end

/-! ## Plots, runs and rows of one pen -/

section
variable (c : Byte) (s : State)

theorem plot_drawnFrom (x y : Int) : Memory.DrawnFrom (Hits s x y) c s.mem (plot x y c s).mem := by
  classical
  intro a
  rw [read_plot]
  exact ⟨fun h => if_pos h, fun h => if_neg h⟩

/-- The second of two steps is one further than the first. -/
theorem advance_succ (x d : Int) (k : Nat) : x + d * ((k + 1 : Nat) : Int) = x + d + d * (k : Int) := by
  push_cast
  ring

/-- A run of one pen draws at every pixel of the run (R206). -/
theorem plotRun_drawnFrom (y : Int) (d : Dir) (count : Nat) (x : Int) :
    Memory.DrawnFrom (fun a => ∃ k < count, Hits s (x + d.step * (k : Int)) y a) c s.mem
      (plotRun y d (List.replicate count c) x s).mem := by
  induction count generalizing x s with
  | zero => exact Memory.drawnFrom_zero _
  | succ count ih =>
    refine .cons (H := fun k a => Hits s (x + d.step * (k : Int)) y a)
      ((plot_drawnFrom c s x y).congr fun a => by simp) ((ih (plot x y c s) (x + d.step)).congr fun a => ?_)
    rw [plot_eq_withMem]
    simp only [advance_succ, hits_withMem]

/-- The rows of a rectangle draw at every pixel of its rows (R252). -/
theorem plotRows_drawnFrom (x : Int) (cols : Nat) (y : Int) (rows : Nat) :
    Memory.DrawnFrom (fun a => ∃ j < rows, ∃ k < cols, Hits s (x + (k : Int)) (y + (j : Int)) a) c s.mem
      (plotRows x y c cols rows s).mem := by
  induction rows generalizing y s with
  | zero => exact Memory.drawnFrom_zero _
  | succ rows ih =>
    refine .cons (H := fun j a => ∃ k < cols, Hits s (x + (k : Int)) (y + (j : Int)) a)
      ((plotRun_drawnFrom c s y .inc cols x).congr fun a => by simp [Dir.step])
      ((ih (plotRun y .inc (List.replicate cols c) x s) (y + 1)).congr fun a => ?_)
    rw [plotRun_eq_withMem]
    simp only [hits_withMem, Nat.cast_add, Nat.cast_one, Int.add_assoc, Int.add_comm 1]

end

theorem fillRect_eq_withMem (s : State) : fillRect s = s.withMem (fillRect s).mem := plotRows_eq_withMem _ _ _ _ _ s

/-! ## Addresses of fills -/

/-- The linear address of a wrapped origin (R251). -/
theorem linear_wrap512_eq {x y : Int} {a0 : Nat} (h : (a0 : Int) = 512 * (y % 512) + x % 512) :
    linear (wrap512 x) (wrap512 y) = a0 := by
  unfold linear wrap512
  omega

/-! ## Lines (R256, R257) -/

/-- The state with the blit position moved. -/
def State.moved (s : State) (dx dy : Int) : State :=
  s.withRegs { s.regs with blitX := s.regs.blitX + dx, blitY := s.regs.blitY + dy }

/-- One round of a line: plot at the current position, then move on. -/
def linePixel (dx dy : Int) (s : State) : State := (plot s.regs.blitX s.regs.blitY s.regs.pen s).moved dx dy

theorem hlinePixel_eq_linePixel : hlinePixel = linePixel 1 0 := by
  funext s
  rw [hlinePixel, linePixel, State.moved, Int.add_zero]

theorem vlinePixel_eq_linePixel : vlinePixel = linePixel 0 1 := by
  funext s
  rw [vlinePixel, linePixel, State.moved, Int.add_zero]

section
variable (dx dy : Int) (s : State)

theorem linePixel_eq : linePixel dx dy s =
    (s.moved dx dy).withMem (plot s.regs.blitX s.regs.blitY s.regs.pen s).mem := by
  rw [linePixel, plot_eq_withMem]
  rfl

theorem State.moved_zero : s.moved 0 0 = s := by rw [State.moved, Int.add_zero, Int.add_zero]; rfl

/-- Moving twice is moving by the sum. -/
theorem State.moved_moved (a b : Int) (m : Memory) :
    ((s.moved dx dy).withMem m).moved a b = (s.moved (dx + a) (dy + b)).withMem m := by
  simp only [State.moved, State.withMem_regs, State.withMem_withRegs, State.withRegs_regs, State.withRegs_withRegs,
    Int.add_assoc]

/-- A line draws with the pen at each of its positions and leaves the position past the last one, unreduced; it changes
nothing else. -/
theorem repeatTimes_linePixel (n : Nat) : ∃ m,
    repeatTimes (linePixel dx dy) n s = (s.moved (dx * n) (dy * n)).withMem m ∧
    Memory.DrawnFrom (fun a => ∃ k < n, Hits s (s.regs.blitX + dx * (k : Int)) (s.regs.blitY + dy * (k : Int)) a)
      s.regs.pen s.mem m := by
  induction n generalizing s with
  | zero => exact ⟨s.mem, by simp [repeatTimes, State.moved_zero], Memory.drawnFrom_zero _⟩
  | succ n ih =>
    obtain ⟨m, hm, hrest⟩ := ih (linePixel dx dy s)
    rw [linePixel_eq] at hm hrest
    refine ⟨m, ?_, .cons (H := fun k a => Hits s (s.regs.blitX + dx * (k : Int)) (s.regs.blitY + dy * (k : Int)) a)
      ((plot_drawnFrom s.regs.pen s s.regs.blitX s.regs.blitY).congr fun a => by simp) (hrest.congr fun a => ?_)⟩
    · rw [repeatTimes, linePixel_eq, hm, State.moved_moved, State.withMem_withMem, Nat.cast_succ, mul_add, mul_add,
        mul_one, mul_one, Int.add_comm dx, Int.add_comm dy]
    · simp only [advance_succ]
      rfl

end

section
variable (s : State)

/-- HLINE draws along x and leaves `blit_x` past the last pixel (R256). -/
theorem hline_eq : ∃ m,
    hline s = (s.withRegs { s.regs with blitX := s.regs.blitX + s.regs.lineLength + 1 }).withMem m ∧
    Memory.DrawnFrom (fun a => ∃ k < s.regs.lineLength + 1, Hits s (s.regs.blitX + (k : Int)) s.regs.blitY a)
      s.regs.pen s.mem m := by
  rw [hline, hlinePixel_eq_linePixel, Int.add_assoc]
  simpa [State.moved] using repeatTimes_linePixel 1 0 s (s.regs.lineLength + 1)

/-- VLINE draws along y and leaves `blit_y` past the last pixel (R257). -/
theorem vline_eq : ∃ m,
    vline s = (s.withRegs { s.regs with blitY := s.regs.blitY + s.regs.lineLength + 1 }).withMem m ∧
    Memory.DrawnFrom (fun a => ∃ k < s.regs.lineLength + 1, Hits s s.regs.blitX (s.regs.blitY + (k : Int)) a)
      s.regs.pen s.mem m := by
  rw [vline, vlinePixel_eq_linePixel, Int.add_assoc]
  simpa [State.moved] using repeatTimes_linePixel 0 1 s (s.regs.lineLength + 1)

variable {s}

/-- A line schedules its one token and changes the registers, the memory and nothing else (R160). -/
theorem schedule_line {t : State} {r : RegisterFile} {m : Memory} (h : t = (s.withRegs r).withMem m) :
    Claims.Started s (t.schedule .direct) ∧
    t.schedule .direct = { s with
      regs := r
      mem := (t.schedule .direct).mem
      pending := (t.schedule .direct).pending
      outputs := (t.schedule .direct).outputs } := by
  subst h
  exact ⟨⟨rfl, .direct, rfl⟩, rfl⟩

end

/-! ## The statements -/

/-- Settles O25: the fill starts at the wrapped origin's linear address and goes on to the end of each selected layer. -/
theorem fillFromXYFillsToTheBufferEnd : Obligations.FillFromXYFillsToTheBufferEnd := by
  intro s c a0 ha0
  have hread := read_fillFromOrigin s.regs.blitX s.regs.blitY s
  rw [linear_wrap512_eq ha0] at hread
  refine ⟨startFillFromXY s, rfl, onlyStores_schedule rfl .direct, started_schedule rfl .direct,
    fun l a hl hfrom hto => ?filled, fun a hout => ?other⟩
  case filled =>
    exact (hread _).trans (if_pos ⟨l, hl, Nat.add_le_add_left hfrom _, Nat.add_lt_add_left hto _⟩)
  case other =>
    refine (hread a).trans (if_neg ?_)
    rintro ⟨l, hl, hfrom, hto⟩
    exact hout l hl ⟨hfrom, hto⟩

/-- Settles O26: the rows of the rectangle draw with the pen, and a plot of any of their pixels hits where `Hits` says. -/
theorem fillRectPlotsTheBlock : Obligations.FillRectPlotsTheBlock := by
  intro s c
  have hdrawn := plotRows_drawnFrom s.regs.pen s s.regs.blitX (s.regs.rectWidth + 1) s.regs.blitY
    (s.regs.rectHeight + 1)
  refine ⟨startFillRect s, rfl, onlyStores_schedule (fillRect_eq_withMem s) .direct,
    started_schedule (fillRect_eq_withMem s) .direct, fun a dx dy hx hy hhit => ?hit, fun a hnone => ?other⟩
  case hit => exact (hdrawn a).1 ⟨dy, by omega, dx, by omega, hhit⟩
  case other => exact (hdrawn a).2 fun ⟨dy, hy, dx, hx, hhit⟩ => hnone dx dy (by omega) (by omega) hhit

/-- Settles O27: row `k` of the band is the wrapped row `blit_y + k`, all 512 bytes of it. -/
theorem fillBandFillsWholeRows : Obligations.FillBandFillsWholeRows := by
  classical
  intro s c
  have hread := read_fillBandRows s.regs.destLayerMask s.regs.pen s.regs.blitY (s.regs.rectHeight + 1) s.mem
  have haddress : ∀ (l : Layer) (r : Nat), layerAddress l (linear 0 r) = 262144 * l.val + 512 * r := fun _ _ => rfl
  refine ⟨startFillBand s, rfl, onlyStores_schedule rfl .direct, started_schedule rfl .direct,
    fun l k r x hl hk hr hx => ?filled, fun a hout => ?other⟩
  case filled =>
    refine (hread _).trans (if_pos ⟨l, k, hl, by omega, ?_⟩)
    rw [wrap512_eq hr, haddress]
    omega
  case other =>
    refine (hread a).trans (if_neg ?_)
    rintro ⟨l, k, hl, hk, hfrom, hto⟩
    rw [haddress] at hfrom hto
    have hrow : (wrap512 (s.regs.blitY + k) : Int) = (s.regs.blitY + k) % 512 := by unfold wrap512; omega
    exact hout l k (wrap512 (s.regs.blitY + k)) (a - (262144 * l.val + 512 * wrap512 (s.regs.blitY + k))) hl (by omega)
      hrow (by omega) (by omega)

/-- Settles O28: the line draws at `blit_x + k` and leaves `blit_x` past its last pixel. -/
theorem hlineDrawsAndAdvancesBlitX : Obligations.HlineDrawsAndAdvancesBlitX := by
  intro s c
  obtain ⟨m, hm, hdrawn⟩ := hline_eq s
  obtain ⟨hstarted, hshape⟩ := schedule_line hm
  have hmem : (startHline s).mem = m := congrArg State.mem hm
  rw [← hmem] at hdrawn
  exact ⟨startHline s, rfl, hstarted, hshape, fun a k hk hhit => (hdrawn a).1 ⟨k, by omega, hhit⟩,
    fun a hnone => (hdrawn a).2 fun ⟨k, hk, hhit⟩ => hnone k (by omega) hhit⟩

/-- Settles O29: the line draws at `blit_y + k` and leaves `blit_y` past its last pixel. -/
theorem vlineDrawsAndAdvancesBlitY : Obligations.VlineDrawsAndAdvancesBlitY := by
  intro s c
  obtain ⟨m, hm, hdrawn⟩ := vline_eq s
  obtain ⟨hstarted, hshape⟩ := schedule_line hm
  have hmem : (startVline s).mem = m := congrArg State.mem hm
  rw [← hmem] at hdrawn
  exact ⟨startVline s, rfl, hstarted, hshape, fun a k hk hhit => (hdrawn a).1 ⟨k, by omega, hhit⟩,
    fun a hnone => (hdrawn a).2 fun ⟨k, hk, hhit⟩ => hnone k (by omega) hhit⟩

/-- Settles O30: each direct primitive leaves configuration and outputs, and then its token is scheduled. -/
theorem startTokenFamilies : Obligations.StartTokenFamilies := by
  intro s c i hi
  simp only [List.mem_cons, List.not_mem_nil, or_false] at hi
  obtain rfl | rfl | rfl | rfl | rfl | rfl := hi
  · exact ⟨startFillAll s, rfl, rfl⟩
  · exact ⟨startFillFromXY s, rfl, rfl⟩
  · refine ⟨startFillRect s, rfl, ?_⟩
    rw [startFillRect, fillRect_eq_withMem]
    rfl
  · exact ⟨startFillBand s, rfl, rfl⟩
  · obtain ⟨m, hm, -⟩ := hline_eq s
    refine ⟨startHline s, rfl, ?_⟩
    rw [startHline, hm]
    rfl
  · obtain ⟨m, hm, -⟩ := vline_eq s
    refine ⟨startVline s, rfl, ?_⟩
    rw [startVline, hm]
    rfl

end Sys2Proof.Machine

/-! Proofs of the statements on 41_bitstream_decoder.md: what the header and each operation of the bitstream do to the state
(R201 to R213). -/

namespace Sys2Proof.Machine

/-! ## Directions, sizes and pens -/

theorem sign_eq_step (d : Dir) : Claims.sign d = d.step := by cases d <;> rfl

theorem clampTo_eq_min (v m : Nat) : clampTo v m = min v m := by
  unfold clampTo
  split_ifs <;> omega

/-- A pen's low nibble under a register pen's high nibble (R204, D22). -/
theorem nibbles_eq_append (p r : Byte) : (p &&& 0x0F) ||| (r &&& 0xF0) = r.extractLsb' 4 4 ++ p.extractLsb' 0 4 := by
  have hlow : ∀ i : Fin 8, (0x0F : Byte).getLsbD i = decide (i.val < 4) := by decide
  have hhigh : ∀ i : Fin 8, (0xF0 : Byte).getLsbD i = decide (4 ≤ i.val) := by decide
  apply BitVec.eq_of_getLsbD_eq
  intro i hi
  rw [BitVec.getLsbD_or, BitVec.getLsbD_and, BitVec.getLsbD_and, hlow ⟨i, hi⟩, hhigh ⟨i, hi⟩, BitVec.getLsbD_append]
  by_cases h : i < 4
  · simp [h, hi]
  · have hkept : 4 ≤ i ∧ 4 + (i - 4) = i ∧ i - 4 < 4 := by omega
    simp [h, hi, hkept]

/-! ## Runs of pens (R206, R207) -/

section
variable {s : State} {w : Working}

/-- A run changes the memory and leaves `x` past its last pixel. -/
theorem runPens_eq (pens : List Byte) {n : Nat} (hn : pens.length = n + 1) : runPens pens s w = { s with
    mem := (runPens pens s w).mem
    decoder := .running { w with x := w.x + Claims.sign w.xdir * (n + 1) } } := by
  have hlength : (pens.length : Int) = n + 1 := by exact_mod_cast hn
  rw [runPens, plotRun_eq_withMem, hlength, sign_eq_step]
  rfl

end

/-! ## The statements -/

/-- Settles O32: the header checks both sizes, pen before arg, and its clamps are minima. -/
theorem headerSetsSizesAndPosition : Obligations.HeaderSetsSizesAndPosition := by
  intro s c hp ha hd
  change execHdr hp ha s = _
  rw [execHdr, hd]
  dsimp only
  rw [runHeader_eq, clampTo_eq_min, clampTo_eq_min]
  rfl

/-- Settles O33: the sign of a direction is its step. -/
theorem nextLineStepsTheRow : Obligations.NextLineStepsTheRow := by
  intro s w hd
  rw [sign_eq_step]
  exact onWorking_of_running hd _

/-- Settles O34: a run of one pen draws with it at each of its pixels. -/
theorem drawRunPlotsOnePen : Obligations.DrawRunPlotsOnePen := by
  intro s w n p hd
  have hdrawn := plotRun_drawnFrom (merge s.regs p) s w.y w.xdir (n + 1) w.x
  rw [← sign_eq_step] at hdrawn
  refine ⟨runDraw n p s w, onWorking_of_running hd _, runPens_eq _ List.length_replicate,
    fun a k hk hhit => ?hit, fun a hnone => ?other⟩
  case hit => exact (hdrawn a).1 ⟨k, by omega, hhit⟩
  case other => exact (hdrawn a).2 fun ⟨k, hk, hhit⟩ => hnone k (by omega) hhit

/-- Settles O35: the last of the pixels that hit an address leaves its own merged pen there. -/
theorem copyRunPlotsEachPen : Obligations.CopyRunPlotsEachPen := by
  intro s w p0 ps hd
  have hlength : ((p0 :: ps).map (merge s.regs)).length = ps.length + 1 := by rw [List.length_map, List.length_cons]
  refine ⟨runCopy (p0 :: ps) s w, onWorking_of_running hd _, runPens_eq _ hlength,
    fun a k p hp hhit hlater => ?hit, fun a hnone => ?other⟩
  case hit =>
    obtain ⟨hk, rfl⟩ := List.getElem?_eq_some_iff.1 hp
    rw [sign_eq_step] at hhit hlater
    refine (read_plotRun_of_last_hit w.y w.xdir _ w.x s a k (by rwa [List.length_map]) hhit
      fun j hj hkj => hlater j hkj (by omega)).trans ?_
    rw [List.getElem_map]
  case other =>
    rw [sign_eq_step] at hnone
    exact read_plotRun_of_not_hit w.y w.xdir _ w.x s a fun k hk => hnone k (by omega)

/-- Settles O36: the sign of a direction is its step. -/
theorem skipAdvancesX : Obligations.SkipAdvancesX := by
  intro s w n hd
  rw [sign_eq_step]
  exact onWorking_of_running hd _

/-- Settles O37: each change checks its size, and its clamp is a minimum. -/
theorem sizeChangesClampAndRecord : Obligations.SizeChangesClampAndRecord := by
  intro s w hd
  refine ⟨fun f => (onWorking_of_running hd _).trans ?_, fun f => (onWorking_of_running hd _).trans ?_⟩
  · rw [runArgSize, checkArgSize_eq, clampTo_eq_min]
    rfl
  · rw [runPenSize, checkPenSize_eq, clampTo_eq_min]
    rfl

/-- Settles O38: the end address counts in the units of the configuration, and the end schedules the ROM token. -/
theorem stopEndsTheInvocation : Obligations.StopEndsTheInvocation := by
  intro s w hd
  rw [← Config.unitBits_eq_unit]
  exact onWorking_of_running hd _

/-- Settles O39: Unknown raises its record and then finishes the invocation as Stop does. -/
theorem unknownRecordsThenStops : Obligations.UnknownRecordsThenStops := by
  intro s w op hd
  have hunk : exec (.unk op) s = .next (runUnknown op s w) := onWorking_of_running hd _
  have hstop : exec .stop (s.raise (.unknownOpcode op w.cursor.cur)) = .next (runUnknown op s w) :=
    onWorking_of_running (s := s.raise (.unknownOpcode op w.cursor.cur)) hd _
  exact ⟨hunk.trans hstop.symm, runUnknown op s w, hunk, rfl, rfl, rfl⟩

/-- Settles O40: with `pen_mode` clear the two masks take one nibble of each pen. -/
theorem mergeFollowsPenMode : Obligations.MergeFollowsPenMode := by
  intro r p
  refine ⟨fun h => ?set, fun h => ?clear⟩
  case set => rw [merge, if_pos h]
  case clear => rw [merge, if_neg (by simp [h]), nibbles_eq_append]

end Sys2Proof.Machine

/-! Proofs of the statements on 43_compositor.md and 70_reset_and_hazards.md: what handing out a frame changes (R280, R282,
R303), what reset leaves (R340, R341), and which configurations can be constructed (R345). -/

namespace Sys2Proof

/-- The legal configurations, in the terms of R345. -/
theorem Config.legal_iff {cfg : Config} : cfg.legal = true ↔
    0 < cfg.rom.length ∧ (8 * cfg.rom.length) % Claims.unit cfg = 0 ∧
      (∀ o ∈ cfg.perm.toList, [o.bottom, o.second, o.third, o.top].Nodup) ∧ cfg.perm.toList.Nodup ∧
      0 < cfg.visWidth ∧ 0 < cfg.visHeight := by
  simp only [Config.legal, Bool.and_eq_true, decide_eq_true_eq, List.all_eq_true, and_assoc, Config.romLength,
    Config.unitBits_eq_unit, Nat.one_le_iff_ne_zero, Nat.pos_iff_ne_zero]
  rfl

end Sys2Proof

namespace Sys2Proof.Machine

section
variable (s : State)

/-! ## Frames -/

/-- A frame records the priority of each group in use that is 24 or more, group 0 first (R282, R303). -/
theorem checkPriorities_eq : checkPriorities s = { s with
    diag := s.diag ++ (if s.regs.priorityIndex.toNat ≥ 24 then [.priorityRange 0 s.regs.priorityIndex] else []) ++
      (if s.config.eightLayer = true ∧ s.regs.priorityIndex2.toNat ≥ 24
        then [.priorityRange 1 s.regs.priorityIndex2] else []) } := by
  cases h : s.config.eightLayer <;> simp [checkPriorities, State.checkPriority, raiseIf_eq, h]

/-- The frame has `VIS_H` rows (R63). -/
theorem frameOf_length : (frameOf s).length = s.config.visHeight := by simp [frameOf]

/-- Each row of the frame has `VIS_W` pixels (R63). -/
theorem length_of_mem_frameOf {row : List FramePixel} (h : row ∈ frameOf s) : row.length = s.config.visWidth := by
  obtain ⟨y, -, rfl⟩ := List.mem_map.1 h
  simp

/-- Row `y` of the frame holds the frame pixels of `y` from left to right (R280). -/
theorem frameOf_getD {x y : Nat} (hx : x < s.config.visWidth) (hy : y < s.config.visHeight) :
    ((frameOf s).getD y []).getD x 0 = framePixel s x y := by
  simp [frameOf, hx, hy]

end

/-! ## Reset -/

/-- Every per-layer bank is 0 at reset (R341). -/
theorem reset_banks (l : Layer) :
    RegisterFile.reset.scrollX.get l = 0 ∧ RegisterFile.reset.scrollY.get l = 0 ∧
    RegisterFile.reset.paletteBase.get l = 0 ∧ RegisterFile.reset.paletteMask.get l = 0 ∧
    RegisterFile.reset.transparencyPen.get l = 0 ∧ RegisterFile.reset.transparencyMask.get l = 0 := by
  revert l
  decide

/-! ## The statements -/

/-- Settles O48: the frame is handed out after the priorities are checked, and checking them only records. -/
theorem compositeHandsOutTheFrameOnly : Obligations.CompositeHandsOutTheFrameOnly := by
  intro s es hd hi
  refine ⟨frameOf s, ?_, frameOf_length s, fun row => length_of_mem_frameOf s, fun x y => frameOf_getD s⟩
  rw [step_of_done (fetch_of_entry hd hi), compositeFrame, checkPriorities_eq]
  rfl

/-- Settles O52: the step answers a fresh device with the host's entries and outputs kept. -/
theorem resetLeavesTheResetValues : Obligations.ResetLeavesTheResetValues := by
  intro s es hd hi
  exact ⟨_, step_of_done (fetch_of_entry hd hi), Memory.read_nil, rfl, rfl, rfl, rfl, rfl, rfl, rfl, rfl, rfl, rfl, rfl,
    rfl, rfl, rfl, rfl, rfl, rfl, rfl, rfl, rfl, rfl, rfl, rfl, rfl, rfl, rfl, reset_banks⟩

/-- Settles O53: a device is constructed exactly where the configuration's legality, which is R345's, holds. -/
theorem constructionRefusesIllegalConfigurations : Obligations.ConstructionRefusesIllegalConfigurations := by
  intro cfg
  refine ⟨fun hgood => ?legal, fun hbad => ?illegal⟩
  case legal => exact if_pos (Config.legal_iff.2 hgood)
  case illegal => exact if_neg (mt Config.legal_iff.1 hbad)

end Sys2Proof.Machine
